-- ==== Sys2Proof/Word.lean ====
section
/-! DEFINITION. The word types of the block and the two-valued bit symbol (spec/00_scope.md R10, R15, R17, R19;
spec/30_encoding.md R70). -/

namespace Sys2Proof

/-- An operation word `W`: opcode W[67:64], operand W[63:0] (R70). -/
abbrev OpWord := BitVec 68

/-- A timestamp or a duration in microseconds, `u64` (R10 TS_BITS, R72, R121). -/
abbrev Timestamp := BitVec 64

/-- A register index, W[3:0] of format I (R50, R72). -/
abbrev RegIndex := BitVec 4

/-- One data byte of the frame (R10 N_DATA_BYTES, R26). -/
abbrev Byte := BitVec 8

/-- The 40-bit accumulator RAW_FRAME (R10 FRAME_BITS, R26). -/
abbrev Frame := BitVec 40

/-- A BitSymbol, "derived from `classify(delta_t)`" (R17, R18). -/
inductive BitSymbol where
  | zero
  | one
  deriving DecidableEq, Repr

end Sys2Proof
end

