-- ==== Sys2Proof/Config.lean ====
section
/-! DEFINITION. The constants of the hardware (spec/00_scope.md R10, R11, R12). They are not state and no operation
writes them (R31, R61, R201). The host's parameters T_START_US, TIMEOUT and EDGE_LATENCY_US (R13) are read by no rule of
the block and stand nowhere in the model. -/

namespace Sys2Proof

/-- THRESHOLD_US, the classifier's threshold in microseconds (R11). UNVERIFIED: the source gives it only as about 100
and the spec takes 100 (decision D6); unsafe, notes/assumptions/6.md. -/
def Config.thresholdUs : Timestamp := 100

/-- DATA_LSB, the position inside RAW_FRAME of the least significant bit of the fourth data byte (R12). UNVERIFIED: the
source does not place the four bytes and the spec takes 8 (decision D7); unsafe, notes/assumptions/7.md. -/
def Config.dataLsb : Nat := 8

/-- N_PREAMBLE: edges before the first bit-bearing edge (R10). -/
def Config.nPreamble : Nat := 2

/-- N_DATA_BITS: data bits per frame (R10). -/
def Config.nDataBits : Nat := 40

/-- N_CKSUM_BITS: transmitted checksum bits (R10). -/
def Config.nCksumBits : Nat := 8

/-- N_EDGES: edges per frame, the sum of the three counts (R10). -/
def Config.nEdges : Nat := Config.nPreamble + Config.nDataBits + Config.nCksumBits

end Sys2Proof
end

