-- ==== Sys2Proof/Syntax.lean ====
section
/-! DEFINITION. The six operations of the block, one constructor per row of spec/opcode_table.json
(spec/30_encoding.md R71, R72). -/

namespace Sys2Proof

/-- An operation with the operand its format takes from the word (R72): format N takes nothing, format T the
timestamp, format I the register index. -/
inductive Instr where
  /-- START, format N: begin a read cycle (R100). -/
  | start
  /-- ARM, format N: capture is armed (R103). -/
  | arm
  /-- EDGE ts, format T: one edge notification (R120). -/
  | edge (ts : Timestamp)
  /-- TMO, format N: the consumer's bounded wait ended (R106). -/
  | tmo
  /-- FIN, format N: finalize a completed capture (R108). -/
  | fin
  /-- RD idx, format I: read one register (R160). -/
  | rd (idx : RegIndex)
  deriving DecidableEq, Repr

end Sys2Proof
end

