-- ==== Sys2Proof/Decode.lean ====
section
/-! DEFINITION. The decoder and the encoder of operation words (spec/30_encoding.md R70 to R72, R77, R78, R81). The decoder
is total on 68-bit words and rejects a reserved opcode by name. Bits that a format does not read are dropped by the
decoder (R78) and written as zero by the encoder. -/

namespace Sys2Proof

/-- W[67:64], the opcode field (R70). -/
def opcodeOf (w : OpWord) : BitVec 4 := w.extractLsb' 64 4

/-- W[63:0], the operand field (R70); the timestamp of format T (R72). -/
def operandOf (w : OpWord) : BitVec 64 := w.extractLsb' 0 64

/-- W[3:0], the register index of format I (R72); W[63:4] is ignored. -/
def indexOf (w : OpWord) : RegIndex := w.extractLsb' 0 4

/-- What the decoder answers: an operation, or the reserved opcode it rejects (R77). -/
inductive Decoded where
  | op (i : Instr)
  /-- A word whose opcode is 0x0 or 0x7 to 0xF (R77); the step answers it with ILLEGAL_OP. -/
  | reservedOpcode (opcode : BitVec 4)
  deriving DecidableEq, Repr

/-- Decodes one operation word: "A decoder needs W[67:64] only" (R71). -/
def decode (w : OpWord) : Decoded :=
  match opcodeOf w with
  | 0x1#4 => .op .start
  | 0x2#4 => .op .arm
  | 0x3#4 => .op (.edge (operandOf w))
  | 0x4#4 => .op .tmo
  | 0x5#4 => .op .fin
  | 0x6#4 => .op (.rd (indexOf w))
  | opcode => .reservedOpcode opcode

/-- The opcode number of an operation (R71). -/
def Instr.opcode : Instr → BitVec 4
  | .start => 0x1#4
  | .arm => 0x2#4
  | .edge _ => 0x3#4
  | .tmo => 0x4#4
  | .fin => 0x5#4
  | .rd _ => 0x6#4

/-- The operand field of an operation's word, unread bits zero (R72, R78, R81). -/
def Instr.operand : Instr → BitVec 64
  | .start => 0
  | .arm => 0
  | .edge ts => ts
  | .tmo => 0
  | .fin => 0
  | .rd idx => idx.setWidth 64

/-- The word of an operation (R70, R81). -/
def encode (i : Instr) : OpWord := i.opcode ++ i.operand

/-- The operation word whose bits are `w` as spec/opcode_table.json numbers them: its bit 0 is W[0], so the numbering is
that of R70 itself. `nbits` is the row's width in whole bytes, so bits from `nbits` up are 0; a number that does not fit
in 68 bits is no operation word. -/
def tableWord (nbits w : Nat) : Option OpWord :=
  let v := w % 2 ^ nbits
  if v < 2 ^ 68 then some (BitVec.ofNat 68 v) else none

/-- The operation the decoder reads from the table's bits, none where it refuses. -/
def decodeTableWord (nbits w : Nat) : Option Instr :=
  match tableWord nbits w with
  | none => none
  | some word =>
    match decode word with
    | .op i => some i
    | .reservedOpcode _ => none

end Sys2Proof
end

