-- ==== Sys2Proof/Machine/State.lean ====
section
/-! DEFINITION. The state of the block as plain data: the six registers of spec/10_state.md R20, the response port of
spec/30_encoding.md R73 and the events still to be presented at the boundary, in the one total order of
spec/20_memory.md R56. The block has no memory (R50) and no program counter (R29), so State holds neither. -/

namespace Sys2Proof.Machine

/-- The session states of R23. STATE values 6 and 7 are never written by any operation and have no constructor
(spec/93_implementation_defined.md U12; DESIGN CHOICE, safe, notes/assumptions/9.md). -/
inductive SessionState where
  /-- No acquisition in progress; the value after reset and after START. -/
  | idle
  /-- The consumer has armed capture; no edge has been observed yet. -/
  | handshaking
  /-- At least one edge has been observed; the producer owns the session. -/
  | capturing
  /-- All 50 edges have been observed; DONE is 1. -/
  | complete
  /-- The consumer's wait ended before edge 50. -/
  | timedOut
  /-- FIN found the computed checksum different from RAW_CHECKSUM. -/
  | checksumInvalid
  deriving DecidableEq, Repr

/-- The response codes of R74; 0x6 to 0xF are never returned and have no constructor. -/
inductive ResponseCode where
  | ok
  | busy
  | timeout
  | checksumMismatch
  | illegalState
  | illegalOp
  deriving DecidableEq, Repr

/-- A response: its outcome and its 64-bit data field (R73). Its 68-bit word is `Response.word`. -/
structure Response where
  code : ResponseCode
  data : BitVec 64
  deriving DecidableEq, Repr

/-- The two contexts that issue operation words (R80, R181). -/
inductive Agent where
  /-- The edge-interrupt callback, which issues EDGE. -/
  | producer
  /-- The blocking reader, which issues START, ARM, TMO, FIN and RD. -/
  | consumer
  deriving DecidableEq, Repr

/-- What can happen at the block's boundary: an operation word presented by an agent, or the reset input. The block
does not know which agent issued a word (R80): no step reads `issuer`. -/
inductive Event where
  | word (issuer : Agent) (w : OpWord)
  | reset
  deriving DecidableEq, Repr

/-- Why a step could fault: it cannot. Every error of the block is a response code and nothing else is an error (R170,
R172, R179), so there is no fault reason. DEDUCED, safe, notes/assumptions/11.md. -/
inductive Fault
  deriving DecidableEq, Repr

/-- Why a step could be refused. -/
inductive Refusal where
  /-- Raised by an arm of `exec` whose instruction has no meaning yet; no arm does. Safe. -/
  | notModelled (mnemonic : String)
  deriving DecidableEq, Repr

/-- The machine's state. -/
structure State where
  /-- STATE, register 0 (R23). -/
  session : SessionState
  /-- EDGE_COUNT, register 1: edges accepted in the current session (R24). -/
  edgeCount : BitVec 32
  /-- LAST_EDGE_TIME, register 2: timestamp of the latest accepted edge of ordinal 2 or more (R25). -/
  lastEdgeTime : Timestamp
  /-- RAW_FRAME, register 3: the data bits, first received in bit 39 after edge 42 (R26). -/
  rawFrame : Frame
  /-- RAW_CHECKSUM, register 4: the transmitted checksum bits (R27). -/
  rawChecksum : Byte
  /-- DONE, register 5: the CompletionSignal (R28). -/
  done : Bool
  /-- The response of the most recent operation; none after reset, which has no response word (R73, R200).
  DESIGN CHOICE, safe, notes/assumptions/2.md. -/
  response : Option Response
  /-- The events still to be presented, in the one total order of R56. DESIGN CHOICE, safe,
  notes/assumptions/1.md. -/
  inputs : List Event
  deriving DecidableEq, Repr

/-- The machine right after reset (R35, R200): all six registers at their reset values, no response yet, and nothing
presented yet (the last two: DESIGN CHOICE, notes/assumptions/1.md and 2.md). -/
def State.reset : State where
  session := .idle
  edgeCount := 0
  lastEdgeTime := 0
  rawFrame := 0
  rawChecksum := 0
  done := false
  response := none
  inputs := []

end Sys2Proof.Machine
end

