-- ==== Sys2Proof/Machine/Ops.lean ====
section
/-! DEFINITION. The named operations over the registers and the two ports: the numbers of session states and response
codes, register writes, the pseudocode primitives `respond` and `raise` (spec/00_scope.md R16), the clearing of the six
registers that START and reset share (spec/10_state.md R35), reset, a reserved opcode, and the wait when nothing is
presented. -/

namespace Sys2Proof.Machine

/-- The number of a session state, the 3 bits of STATE (R23). -/
def SessionState.code : SessionState → BitVec 3
  | .idle => 0
  | .handshaking => 1
  | .capturing => 2
  | .complete => 3
  | .timedOut => 4
  | .checksumInvalid => 5

/-- The number of a response code (R74). -/
def ResponseCode.bits : ResponseCode → BitVec 4
  | .ok => 0x0
  | .busy => 0x1
  | .timeout => 0x2
  | .checksumMismatch => 0x3
  | .illegalState => 0x4
  | .illegalOp => 0x5

/-- The response word `P`: code P[67:64], data P[63:0] (R73). -/
def Response.word (r : Response) : BitVec 68 := r.code.bits ++ r.data

/-- The agent that issues an operation (R71, column "issued by"; R80). -/
def issuerOf : Instr → Agent
  | .start => .consumer
  | .arm => .consumer
  | .edge _ => .producer
  | .tmo => .consumer
  | .fin => .consumer
  | .rd _ => .consumer

/-- The agent that presents a word (R71, R80); the consumer presents a word with a reserved opcode. No step reads it. -/
def presenter (w : OpWord) : Agent :=
  match decode w with
  | .op i => issuerOf i
  | .reservedOpcode _ => .consumer

/-- `STATE <- v`. -/
def State.setSession (s : State) (v : SessionState) : State := { s with session := v }

/-- `EDGE_COUNT <- v`. -/
def State.setEdgeCount (s : State) (v : BitVec 32) : State := { s with edgeCount := v }

/-- `LAST_EDGE_TIME <- v`. -/
def State.setLastEdgeTime (s : State) (v : Timestamp) : State := { s with lastEdgeTime := v }

/-- `RAW_FRAME <- v`. -/
def State.setRawFrame (s : State) (v : Frame) : State := { s with rawFrame := v }

/-- `RAW_CHECKSUM <- v`. -/
def State.setRawChecksum (s : State) (v : Byte) : State := { s with rawChecksum := v }

/-- `DONE <- v`. -/
def State.setDone (s : State) (v : Bool) : State := { s with done := v }

/-- What remains to be presented after an event has been taken. -/
def State.setInputs (s : State) (v : List Event) : State := { s with inputs := v }

/-- `respond(code, data)`: the operation ends and returns the response word (R16). -/
def State.respond (s : State) (code : ResponseCode) (data : BitVec 64) : State :=
  { s with response := some { code := code, data := data } }

/-- `raise <Error>(info)`: the operation ends at once and writes nothing further; its response carries the error's code
and `info` (R16). An error saves nothing and transfers control nowhere (R179), so this is all of it. -/
def State.raise (s : State) (error : ResponseCode) (info : BitVec 64) : State :=
  s.respond error info

/-- `raise IllegalState(STATE)`: the data field is zext_64 of the unchanged state (R75, R170). -/
def State.raiseIllegalState (s : State) : State :=
  s.raise .illegalState (s.session.code.setWidth 64)

/-- All six registers at the values of R35, as an accepted START and the reset input write them (R100, R200). -/
def State.clearRegisters (s : State) : State :=
  { s with
    session := .idle
    edgeCount := 0
    lastEdgeTime := 0
    rawFrame := 0
    rawChecksum := 0
    done := false }

/-- The reset input: every register to its reset value, no response word (R200). What the outside world presents
afterwards is untouched (R201). -/
def hardwareReset (s : State) : State :=
  { s.clearRegisters with response := none }

/-- A word with a reserved opcode: no register changes, the response is `{ILLEGAL_OP, 0}` (R77). -/
def execReserved (s : State) : Host.Outcome State Fault Refusal :=
  .next (s.raise .illegalOp 0)

/-- Nothing is presented: the block takes no action and keeps every register (R34, R176, R185). DESIGN CHOICE, safe,
notes/assumptions/3.md. -/
def idleStep (s : State) : Host.Outcome State Fault Refusal :=
  .next s

end Sys2Proof.Machine
end

