-- ==== Sys2Proof/Machine/Flags.lean ====
section
/-! DEFINITION. The block's one flag, DONE, the CompletionSignal (spec/10_state.md R28, R30; spec/20_memory.md R59). There
are no condition codes. -/

namespace Sys2Proof.Machine

/-- The producer's signal: `DONE <- 1`; a second signal changes nothing (R28, R59). -/
def State.signal (s : State) : State := s.setDone true

/-- The level of the DONE output that the consumer may wait on (R175). -/
def State.doneOutput (s : State) : Bool := s.done

end Sys2Proof.Machine
end

