-- ==== Sys2Proof/Machine/Operands.lean ====
section
/-! DEFINITION. The operands an operation takes from the registers: the register that RD's index names
(spec/44_readback.md R160) and the ordinal of the edge an EDGE delivers (spec/30_encoding.md R72). The operands that
stand in the word are taken by the decoder. -/

namespace Sys2Proof.Machine

/-- `zext_64(x[idx])` for the six registers of R20; none for the reserved indices 6 to 15 (R160, R161). -/
def readRegister (s : State) (idx : RegIndex) : Option (BitVec 64) :=
  match idx with
  | 0#4 => some (s.session.code.setWidth 64)
  | 1#4 => some (s.edgeCount.setWidth 64)
  | 2#4 => some s.lastEdgeTime
  | 3#4 => some (s.rawFrame.setWidth 64)
  | 4#4 => some (s.rawChecksum.setWidth 64)
  | 5#4 => some ((BitVec.ofBool s.done).setWidth 64)
  | _ => none

/-- The ordinal `n = EDGE_COUNT + 1` of the edge being processed (R24), as a number: it does not wrap. In states no run
reaches it may exceed 50; the pseudocode of R120 is then followed as it stands (DEDUCED, safe,
notes/assumptions/8.md). -/
def ordinal (s : State) : Nat := s.edgeCount.toNat + 1

end Sys2Proof.Machine
end

