-- ==== Sys2Proof/Machine/EdgeCapture.lean ====
section
/-! DEFINITION. EDGE: the bit classifier and the frame accumulator (spec/41_edge_capture.md R120 to R130). -/

namespace Sys2Proof.Machine

/-- The bit classifier: strict unsigned comparison with THRESHOLD_US (R121). -/
def classify (delta : Timestamp) : BitSymbol :=
  if delta > Config.thresholdUs then .one else .zero

/-- `One` is stored as the bit 1 and `Zero` as the bit 0 (R17, R121). -/
def bitOf : BitSymbol → BitVec 1
  | .zero => 0
  | .one => 1

/-- The duration `(ts - LAST_EDGE_TIME) mod 2^64` (R122). -/
def deltaOf (s : State) (ts : Timestamp) : Timestamp := ts - s.lastEdgeTime

/-- `((acc << 1) | bit)` reduced to the accumulator's width: most significant bit first, the bit shifted out is
discarded (R124, R125). -/
def shiftIn {width : Nat} (acc : BitVec width) (bit : BitVec 1) : BitVec width :=
  acc <<< 1 ||| bit.setWidth width

/-- Stores one classified bit: RAW_FRAME for ordinals up to 42, RAW_CHECKSUM after it (R120, R124, R125). -/
def storeBit (s : State) (n : Nat) (bit : BitVec 1) : State :=
  if n ≤ Config.nPreamble + Config.nDataBits then
    s.setRawFrame (shiftIn s.rawFrame bit)
  else
    s.setRawChecksum (shiftIn s.rawChecksum bit)

/-- What the edge of ordinal `n` records: nothing for edge 1, the reference time for edge 2, a bit and the new reference
time for the others (R120, R123). -/
def recordEdge (s : State) (n : Nat) (ts : Timestamp) : State :=
  if n = 1 then s
  else if n = Config.nPreamble then s.setLastEdgeTime ts
  else (storeBit s n (bitOf (classify (deltaOf s ts)))).setLastEdgeTime ts

/-- The end of an accepted EDGE: STATE is `Capturing`, or `Complete` with DONE set after the final expected edge
(R120, R126). -/
def closeEdge (s : State) (n : Nat) : State :=
  if n = Config.nEdges then (s.setSession .complete).signal
  else s.setSession .capturing

/-- An EDGE that the state gate lets through (R120). -/
def acceptEdge (s : State) (ts : Timestamp) : State :=
  let n := ordinal s
  closeEdge ((recordEdge s n ts).setEdgeCount (BitVec.ofNat 32 n)) n

/-- The state gate: an edge is accepted in `Handshaking`, where it opens the capture window, and in `Capturing` (R120,
R127). -/
def edgeAccepted : SessionState → Bool
  | .idle => false
  | .handshaking => true
  | .capturing => true
  | .complete => false
  | .timedOut => false
  | .checksumInvalid => false

/-- EDGE ts (R120): ignored outside the gate; the response is always `{OK, 0}`. -/
def execEdge (ts : Timestamp) (s : State) : Host.Outcome State Fault Refusal :=
  if edgeAccepted s.session then .next ((acceptEdge s ts).respond .ok 0)
  else .next (s.respond .ok 0)

end Sys2Proof.Machine
end

