-- ==== Sys2Proof/Machine/Readback.lean ====
section
/-! DEFINITION. RD, the register read-back (spec/44_readback.md R160, R161). -/

namespace Sys2Proof.Machine

/-- RD idx (R160): the register zero-extended to 64 bits; a reserved index gives ILLEGAL_OP (R161). No register is
written, in any state. -/
def execRd (idx : RegIndex) (s : State) : Host.Outcome State Fault Refusal :=
  match readRegister s idx with
  | some v => .next (s.respond .ok v)
  | none => .next (s.raise .illegalOp 0)

end Sys2Proof.Machine
end

