-- ==== Sys2Proof/Machine/Checksum.lean ====
section
/-! DEFINITION. The byte fields of RAW_FRAME (spec/10_state.md R26) and the checksum validator
(spec/42_checksum.md R140, R141). -/

namespace Sys2Proof.Machine

/-- `h_hi`, RAW_FRAME[39:32]: three bytes above DATA_LSB (R12, R26). -/
def hHi (F : Frame) : Byte := F.extractLsb' (Config.dataLsb + 24) 8

/-- `h_lo`, RAW_FRAME[31:24] (R12, R26). -/
def hLo (F : Frame) : Byte := F.extractLsb' (Config.dataLsb + 16) 8

/-- `t_hi`, RAW_FRAME[23:16] (R12, R26). -/
def tHi (F : Frame) : Byte := F.extractLsb' (Config.dataLsb + 8) 8

/-- `t_lo`, RAW_FRAME[15:8] (R12, R26). -/
def tLo (F : Frame) : Byte := F.extractLsb' Config.dataLsb 8

/-- The 8-bit truncated sum of the four data bytes (R140). -/
def cksumCompute (b1 b2 b3 b4 : Byte) : Byte :=
  BitVec.ofNat 8 ((b1.toNat + b2.toNat + b3.toNat + b4.toNat) % 256)

/-- Whether the computed checksum equals the transmitted one (R141). -/
def cksumValidate (F : Frame) (C : Byte) : Bool :=
  cksumCompute (hHi F) (hLo F) (tHi F) (tLo F) == C

end Sys2Proof.Machine
end

