-- ==== Sys2Proof/Machine/ReadingDecoder.lean ====
section
/-! DEFINITION. The reading decoder, a fixed-point scaler (spec/43_reading_decoder.md R150 to R154), and the packing of its
result into a response's data field (spec/30_encoding.md R76). -/

namespace Sys2Proof.Machine

/-- The DecodedReading, "the mathematical triple of rule R150" (R153). -/
structure DecodedReading where
  humidityTenths : Nat
  temperatureTenths : Int
  checksumOk : Bool
  deriving DecidableEq, Repr

/-- `(h_hi << 8) | h_lo`, tenths of a percent (R151). -/
def humidityOf (F : Frame) : Nat := (hHi F).toNat <<< 8 ||| (hLo F).toNat

/-- `((t_hi & 0x7F) << 8) | t_lo`, the magnitude in tenths of a degree (R152). -/
def magnitudeOf (F : Frame) : Nat := (tHi F &&& 0x7F#8).toNat <<< 8 ||| (tLo F).toNat

/-- The magnitude, negated when bit 7 of `t_hi` is set (R152). -/
def temperatureOf (F : Frame) : Int :=
  if tHi F &&& 0x80#8 ≠ 0#8 then -(magnitudeOf F : Int) else (magnitudeOf F : Int)

/-- `decode(F, ok)` of R150. -/
def decodeReading (F : Frame) (ok : Bool) : DecodedReading where
  humidityTenths := humidityOf F
  temperatureTenths := temperatureOf F
  checksumOk := ok

/-- The data field of FIN's response: P[15:0] humidity, P[31:16] temperature in two's complement, P[32] checksum_ok,
P[63:33] zero (R76, R153). -/
def pack (r : DecodedReading) : BitVec 64 :=
  0#31 ++ BitVec.ofBool r.checksumOk ++ BitVec.ofInt 16 r.temperatureTenths ++ BitVec.ofNat 16 r.humidityTenths

end Sys2Proof.Machine
end

