-- ==== Sys2Proof/Machine/SessionControl.lean ====
section
/-! DEFINITION. The consumer's operations that change the session: START, ARM, TMO, FIN
(spec/40_session_control.md R100, R103, R106, R108). -/

namespace Sys2Proof.Machine

/-- START (R100): Busy while `Capturing`; otherwise all six registers to their reset values. -/
def execStart (s : State) : Host.Outcome State Fault Refusal :=
  if s.session = .capturing then .next (s.raise .busy 0)
  else .next (s.clearRegisters.respond .ok 0)

/-- ARM (R103): `Idle` to `Handshaking`. -/
def execArm (s : State) : Host.Outcome State Fault Refusal :=
  if s.session ≠ .idle then .next s.raiseIllegalState
  else .next ((s.setSession .handshaking).respond .ok 0)

/-- TMO (R106): `Handshaking` or `Capturing` to `TimedOut`; the response TIMEOUT is itself the report. -/
def execTmo (s : State) : Host.Outcome State Fault Refusal :=
  if s.session ≠ .handshaking ∧ s.session ≠ .capturing then .next s.raiseIllegalState
  else .next ((s.setSession .timedOut).respond .timeout 0)

/-- FIN (R108): validates, then decodes, in `Complete` only; a mismatch moves STATE to `ChecksumInvalid` and the data field
still carries the reading with `checksum_ok` = 0. -/
def execFin (s : State) : Host.Outcome State Fault Refusal :=
  if s.session ≠ .complete then .next s.raiseIllegalState
  else
    let ok := cksumValidate s.rawFrame s.rawChecksum
    let r := decodeReading s.rawFrame ok
    if ok then .next (s.respond .ok (pack r))
    else .next ((s.setSession .checksumInvalid).raise .checksumMismatch (pack r))

end Sys2Proof.Machine
end

