-- ==== Sys2Proof/Machine/Dispatch.lean ====
section
/-! DEFINITION. The dispatch of the six operations to their meanings, one arm per constructor of Instr. -/

namespace Sys2Proof.Machine

def exec (i : Instr) (s : State) : Host.Outcome State Fault Refusal :=
  match i with
  | .start => Sys2Proof.Machine.execStart s
  | .arm => Sys2Proof.Machine.execArm s
  | .edge ts => Sys2Proof.Machine.execEdge ts s
  | .tmo => Sys2Proof.Machine.execTmo s
  | .fin => Sys2Proof.Machine.execFin s
  | .rd idx => Sys2Proof.Machine.execRd idx s

end Sys2Proof.Machine
end

