-- ==== Sys2Proof/Machine/Step.lean ====
section
/-! DEFINITION. One step of the block: the next event of the total order (spec/20_memory.md R56) is taken whole. The opcode
is decoded first (spec/60_exceptions.md R178). -/

namespace Sys2Proof.Machine

/-- One atomic step (R56): the reset input, an operation word, or the wait when nothing is presented. -/
def step (s : State) : Host.Outcome State Fault Refusal :=
  match s.inputs with
  | [] => idleStep s
  | .reset :: rest => .next (hardwareReset (s.setInputs rest))
  | .word _ w :: rest =>
    match decode w with
    | .op i => exec i (s.setInputs rest)
    | .reservedOpcode _ => execReserved (s.setInputs rest)

/-- `s` with one operation word presented next, before everything still to come, so that the very next step runs it. The
block fetches nothing (R29): a word comes to it only by being presented (notes/assumptions/4.md). A number that is no
68-bit word can not be presented. -/
def State.withFetchWord (s : State) (nbits w : Nat) : State :=
  match tableWord nbits w with
  | some word => s.setInputs (.word (presenter word) word :: s.inputs)
  | none => s

end Sys2Proof.Machine
end

