-- ==== Sys2Proof/Machine/HostCycle.lean ====
section
/-! DEFINITION. The consumer's read cycle over the block's operations: the source's `read(timeout)` as
spec/40_session_control.md R114 cuts it, the pseudo-operation READ of spec/30_encoding.md R82, the wait and its race of
spec/60_exceptions.md R177, and the end of a cycle (R186). The line driving of steps 3, 4, 6 and 7 is the host's and has
no effect in the block (spec/00_scope.md R8). -/

namespace Sys2Proof.Machine

/-- The state after one operation, issued directly. Every operation answers a next state; the other two outcomes do not
occur and leave the state as it was. -/
def issue (i : Instr) (s : State) : State :=
  match exec i s with
  | .next t => t
  | .fault _ => s
  | .refused _ => s

/-- The producer's notifications, in order. -/
def issueEdges (times : List Timestamp) (s : State) : State :=
  times.foldl (fun s ts => issue (.edge ts) s) s

/-- The code of the latest response, OK where there has been none. -/
def State.lastCode (s : State) : ResponseCode :=
  match s.response with
  | some r => r.code
  | none => .ok

/-- Whether the latest response is `{ILLEGAL_STATE, 3}`: a TMO found the capture complete (R177). -/
def completionWon (s : State) : Bool :=
  s.response == some { code := .illegalState, data := 3 }

/-- One whole read cycle (R114, R177). `times` are the notifications that come after ARM and up to the host's last look
at DONE, `late` those between that look and its TMO; the deadline itself is the host's (R176) and is given by where the
two lists part (DESIGN CHOICE, safe, notes/assumptions/15.md). On `{ILLEGAL_STATE, 3}` the host goes on to FIN. -/
def readCycle (times late : List Timestamp) (s : State) : State :=
  let started := issue .start s
  if started.lastCode = .busy then started
  else
    let waited := issueEdges times (issue .arm started)
    if waited.doneOutput then issue .fin waited
    else
      let ended := issue .tmo (issueEdges late waited)
      if completionWon ended then issue .fin ended else ended

/-- Whether an operation that answered with this code ends a read cycle (R186): a TMO that returns TIMEOUT, or a FIN that
returns OK or CHECKSUM_MISMATCH. -/
def endsCycle (i : Instr) (code : ResponseCode) : Bool :=
  match i with
  | .start => false
  | .arm => false
  | .edge _ => false
  | .tmo => code == .timeout
  | .fin => code == .ok || code == .checksumMismatch
  | .rd _ => false

end Sys2Proof.Machine
end

