-- ==== Sys2Proof/Machine/Listing.lean ====
section
/-! DEFINITION. The listing syntax and the pseudo-operations of spec/30_encoding.md R81 and R82: "They exist in listings only;
the block sees only the words they expand to". Nothing here is read by a step. -/

namespace Sys2Proof.Machine

/-- The register names of R81. -/
inductive RegName where
  | state
  | edgeCount
  | lastEdgeTime
  | rawFrame
  | rawChecksum
  | done
  deriving DecidableEq, Repr

/-- The index a register name stands for (R81). -/
def RegName.index : RegName → RegIndex
  | .state => 0
  | .edgeCount => 1
  | .lastEdgeTime => 2
  | .rawFrame => 3
  | .rawChecksum => 4
  | .done => 5

/-- One line of a listing: an operation (R81), or one of the pseudo-operations that expand (R82). READ "is not a single
expansion" and is `readCycle` of Machine/HostCycle.lean. -/
inductive Line where
  | op (i : Instr)
  /-- `EDGE +d` -/
  | edgePlus (d : Timestamp)
  /-- `FRAME t0, pre, S, L, b1 b2 b3 b4 b5, ck` -/
  | frame (t0 pre short long : Timestamp) (b1 b2 b3 b4 b5 ck : Byte)
  deriving DecidableEq, Repr

/-- The 48 bits of `{b1, b2, b3, b4, b5, ck}`, most significant first (R51, R82). -/
def frameBits (b1 b2 b3 b4 b5 ck : Byte) : List Bool :=
  (List.range 48).map fun k => (b1 ++ b2 ++ b3 ++ b4 ++ b5 ++ ck).getMsbD k

/-- The timestamps that start at `t` and advance by the given durations, modulo 2^64 (R82). -/
def timesFrom (t : Timestamp) : List Timestamp → List Timestamp
  | [] => [t]
  | d :: ds => t :: timesFrom (t + d) ds

/-- The 50 timestamps of a FRAME line: `EDGE t0`, `EDGE +pre`, then `EDGE +L` for a 1 and `EDGE +S` for a 0 (R82). -/
def frameTimes (t0 pre short long : Timestamp) (b1 b2 b3 b4 b5 ck : Byte) : List Timestamp :=
  timesFrom t0 (pre :: (frameBits b1 b2 b3 b4 b5 ck).map fun bit => if bit then long else short)

/-- The words of a list of edge notifications. -/
def edgeWords (times : List Timestamp) : List OpWord :=
  times.map fun ts => encode (.edge ts)

/-- The words of a listing, `prev` being the timestamp of the nearest earlier EDGE line (R82). None where `EDGE +d` has no
earlier EDGE line (DESIGN CHOICE, safe, notes/assumptions/14.md) or a FRAME line does not choose
`S <= THRESHOLD_US < L`. -/
def assemble (prev : Option Timestamp) : List Line → Option (List OpWord)
  | [] => some []
  | .op (.edge ts) :: rest => (assemble (some ts) rest).map (encode (.edge ts) :: ·)
  | .op i :: rest => (assemble prev rest).map (encode i :: ·)
  | .edgePlus d :: rest =>
    match prev with
    | none => none
    | some t => (assemble (some (t + d)) rest).map (encode (.edge (t + d)) :: ·)
  | .frame t0 pre short long b1 b2 b3 b4 b5 ck :: rest =>
    if short ≤ Config.thresholdUs ∧ Config.thresholdUs < long then
      let times := frameTimes t0 pre short long b1 b2 b3 b4 b5 ck
      (assemble times.getLast? rest).map (edgeWords times ++ ·)
    else none

/-- The value of a decimal or hexadecimal digit. -/
def digitValue (c : Char) : Option Nat :=
  let v := c.toNat
  if 48 ≤ v ∧ v ≤ 57 then some (v - 48)
  else if 65 ≤ v ∧ v ≤ 70 then some (v - 55)
  else if 97 ≤ v ∧ v ≤ 102 then some (v - 87)
  else none

/-- The number that digits spell in a base, continuing from `acc`; an underscore between them has no meaning (R15). -/
def readDigits (base acc : Nat) : List Char → Option Nat
  | [] => some acc
  | c :: cs =>
    if c = '_' then readDigits base acc cs
    else
      match digitValue c with
      | none => none
      | some v => if v < base then readDigits base (acc * base + v) cs else none

/-- Digits that spell a number: at least one, and underscores only inside, with a digit before and a digit after them.
R15 gives the underscore a meaning only "inside a number"; that one elsewhere is refused is the model's choice (DESIGN
CHOICE, safe, notes/assumptions/16.md). -/
def readNumeral (base : Nat) (cs : List Char) : Option Nat :=
  match cs.head?, cs.getLast? with
  | some first, some last => if first = '_' ∨ last = '_' then none else readDigits base 0 cs
  | _, _ => none

/-- A number of a listing, decimal or `0x` hexadecimal (R81). An underscore right after `0x` does not stand inside the
digits and is refused (DESIGN CHOICE, safe, notes/assumptions/16.md). -/
def readNumber : List Char → Option Nat
  | '0' :: 'x' :: cs => readNumeral 16 cs
  | cs => readNumeral 10 cs

/-- A timestamp of a listing, 0 to 2^64 - 1 (R81). -/
def readTimestamp (cs : List Char) : Option Timestamp :=
  match readNumber cs with
  | some n => if n < 2 ^ 64 then some (BitVec.ofNat 64 n) else none
  | none => none

/-- The `d` of `EDGE +d` and the `pre` of FRAME. R81 bounds timestamps only and R82 reduces `t + d` modulo 2^64, so every
number is taken and reduced; no rule states a range (DESIGN CHOICE, safe, notes/assumptions/17.md). -/
def readDuration (cs : List Char) : Option Timestamp := (readNumber cs).map (BitVec.ofNat 64)

/-- The `S` and `L` of FRAME, which the line compares with THRESHOLD_US (R82). No rule states their range; 2^64 and above
is refused, since it would be reduced after the comparison (DESIGN CHOICE, safe, notes/assumptions/17.md). -/
def readBitDuration (cs : List Char) : Option Timestamp := readTimestamp cs

/-- A byte of a FRAME line: two hexadecimal digits without a prefix, as spec/95_test_vectors.md writes them (R82; DESIGN
CHOICE, safe, notes/assumptions/14.md). -/
def readByte : List Char → Option Byte
  | [a, b] => (readNumeral 16 [a, b]).map (BitVec.ofNat 8)
  | _ => none

/-- The operand of RD: an index 0 to 15 or a register name (R81). The index may be hexadecimal too (DESIGN CHOICE, safe,
notes/assumptions/18.md). -/
def readRegOperand (cs : List Char) : Option RegIndex :=
  if cs = "STATE".toList then some RegName.state.index
  else if cs = "EDGE_COUNT".toList then some RegName.edgeCount.index
  else if cs = "LAST_EDGE_TIME".toList then some RegName.lastEdgeTime.index
  else if cs = "RAW_FRAME".toList then some RegName.rawFrame.index
  else if cs = "RAW_CHECKSUM".toList then some RegName.rawChecksum.index
  else if cs = "DONE".toList then some RegName.done.index
  else
    match readNumber cs with
    | some n => if n < 16 then some (BitVec.ofNat 4 n) else none
    | none => none

/-- A line without its comment, which a `;` starts, and without the response shown after `->` (R81). -/
def stripComment : List Char → List Char
  | [] => []
  | ';' :: _ => []
  | '-' :: '>' :: _ => []
  | c :: cs => c :: stripComment cs

/-- The words of a line; `word` holds the one being read, last character first. Spaces, tabs and commas part words alike
(DESIGN CHOICE, safe, notes/assumptions/18.md). -/
def splitWords (word : List Char) : List Char → List (List Char)
  | [] => if word.isEmpty then [] else [word.reverse]
  | c :: cs =>
    if c = ' ' ∨ c = ',' ∨ c = '\t' then
      if word.isEmpty then splitWords [] cs else word.reverse :: splitWords [] cs
    else splitWords (c :: word) cs

/-- The line that a mnemonic and its operands spell (R81, R82). -/
def readWords : List (List Char) → Option Line
  | [m] =>
    if m = "START".toList then some (.op .start)
    else if m = "ARM".toList then some (.op .arm)
    else if m = "TMO".toList then some (.op .tmo)
    else if m = "FIN".toList then some (.op .fin)
    else none
  | [m, '+' :: d] => if m = "EDGE".toList then (readDuration d).map .edgePlus else none
  | [m, x] =>
    if m = "EDGE".toList then (readTimestamp x).map fun ts => .op (.edge ts)
    else if m = "RD".toList then (readRegOperand x).map fun idx => .op (.rd idx)
    else none
  | [m, t0, pre, short, long, b1, b2, b3, b4, b5, ck] =>
    if m = "FRAME".toList then do
      return .frame (← readTimestamp t0) (← readDuration pre) (← readBitDuration short) (← readBitDuration long)
        (← readByte b1) (← readByte b2) (← readByte b3) (← readByte b4) (← readByte b5) (← readByte ck)
    else none
  | _ => none

/-- Whether a line, given as its words, holds no operation: it is empty, or it is a line in parentheses, a host action
"which the block does not see" (spec/95_test_vectors.md part 3). That its first character tells such a line is the
model's choice (DESIGN CHOICE, safe, notes/assumptions/18.md). -/
def holdsNoOperation : List (List Char) → Bool
  | [] => true
  | ('(' :: _) :: _ => true
  | _ :: _ => false

/-- A listing, one operation per line (R81); a line that holds only a comment, or a host action in parentheses, is skipped.
None where a line is not of the syntax, several operations on one line among them (DESIGN CHOICE, safe,
notes/assumptions/18.md). -/
def readListing : List (List Char) → Option (List Line)
  | [] => some []
  | line :: rest =>
    let words := splitWords [] (stripComment line)
    if holdsNoOperation words then readListing rest
    else
      match readWords words with
      | none => none
      | some l => (readListing rest).map (l :: ·)

end Sys2Proof.Machine
end

