-- ==== Sys2Proof/Safety.lean ====
section
/-! DEFINITION. What the claims are stated in: the reachable states of spec/10_state.md R32, the host duties of
spec/60_exceptions.md R181 and spec/70_reset_and_hazards.md R208 as predicates on the words to come, and what an event is
to the session. -/

namespace Sys2Proof.Machine

/-- The six registers of R20 agree; the two ports may differ. -/
def SameRegisters (s t : State) : Prop :=
  t.session = s.session ∧ t.edgeCount = s.edgeCount ∧ t.lastEdgeTime = s.lastEdgeTime ∧
    t.rawFrame = s.rawFrame ∧ t.rawChecksum = s.rawChecksum ∧ t.done = s.done

/-- All registers but STATE are at their reset values (R32, first two lines). -/
def NothingReceived (s : State) : Prop :=
  s.edgeCount = 0 ∧ s.done = false ∧ s.rawFrame = 0 ∧ s.rawChecksum = 0 ∧ s.lastEdgeTime = 0

/-- The registers of a capture that has seen at most 49 edges (R32, `Capturing` and `TimedOut`). -/
def PartialCapture (s : State) : Prop :=
  s.edgeCount.toNat ≤ 49 ∧ s.done = false ∧
    (s.edgeCount.toNat ≤ 42 → s.rawFrame.toNat < 2 ^ (max s.edgeCount.toNat 2 - 2)) ∧
    s.rawChecksum.toNat < 2 ^ (max s.edgeCount.toNat 42 - 42) ∧
    (s.edgeCount.toNat ≤ 1 → s.lastEdgeTime = 0)

/-- The invariant of R32, one line of its table per session state. -/
def RegisterInv (s : State) : Prop :=
  match s.session with
  | .idle => NothingReceived s
  | .handshaking => NothingReceived s
  | .capturing => 1 ≤ s.edgeCount.toNat ∧ PartialCapture s
  | .complete => s.edgeCount = 50 ∧ s.done = true
  | .timedOut => PartialCapture s
  | .checksumInvalid => s.edgeCount = 50 ∧ s.done = true ∧ cksumValidate s.rawFrame s.rawChecksum = false

/-- The operation an event presents, if it presents one. -/
def Event.instr? : Event → Option Instr
  | .reset => none
  | .word _ w =>
    match decode w with
    | .op i => some i
    | .reservedOpcode _ => none

/-- The event can end the present session: a START word or the reset input (R28, R35). -/
def Event.endsSession (e : Event) : Bool :=
  e == .reset || e.instr? == some .start

/-- The event presents an EDGE. -/
def Event.isEdge (e : Event) : Bool :=
  match e.instr? with
  | some (.edge _) => true
  | _ => false

/-- The timestamps of the EDGE words among the events, in order. -/
def edgeTimes : List Event → List Timestamp
  | [] => []
  | e :: rest =>
    match e.instr? with
    | some (.edge ts) => ts :: edgeTimes rest
    | _ => edgeTimes rest

/-- Two events are the same but for the agent that presents the word (R80). -/
def Event.sameWord : Event → Event → Prop
  | .reset, .reset => True
  | .word _ w, .word _ w' => w = w'
  | .reset, .word _ _ => False
  | .word _ _, .reset => False

/-- Host duty R208: the timestamps of successive EDGEs do not decrease, counted from the reference time once a capture
has one (U2 of spec/93_implementation_defined.md takes it as a premise on the host). -/
def MonotonicTimestamps (s : State) : Prop :=
  (edgeTimes s.inputs).Pairwise (· ≤ ·) ∧
    (2 ≤ s.edgeCount.toNat → ∀ ts ∈ edgeTimes s.inputs, s.lastEdgeTime ≤ ts)

/-- Host duty R80, R181: each agent issues its own operations only. -/
def AgentDiscipline (s : State) : Prop :=
  ∀ issuer w i, Event.word issuer w ∈ s.inputs → decode w = .op i → issuer = issuerOf i

/-- The states a run from reset passes through, with any events to come presented in any order (R32, R56). -/
inductive Reachable : State → Prop where
  | fromReset (events : List Event) : Reachable { State.reset with inputs := events }
  | afterStep (s t : State) : Reachable s → step s = .next t → Reachable t

end Sys2Proof.Machine
end

