-- ==== Sys2Proof/WellFormed.lean ====
section
/-! DEFINITION. Which operations use no reserved encoding (spec/20_memory.md R50, spec/30_encoding.md R78). Every term of
`Instr` has a word and every term runs: an operation that is not well-formed is RD of a reserved index, which the block
answers with ILLEGAL_OP (spec/44_readback.md R161). The timestamp of EDGE needs no check: "All 2^64 values are legal"
(R72). -/

namespace Sys2Proof

/-- The index names one of the six registers of R20; 6 to 15 are reserved (R50, R78). -/
def RegIndex.defined (idx : RegIndex) : Bool := decide (idx.toNat ≤ 5)

/-- The operation uses no reserved register index (R78). -/
def Instr.wellFormed : Instr → Bool
  | .start => true
  | .arm => true
  | .edge _ => true
  | .tmo => true
  | .fin => true
  | .rd idx => RegIndex.defined idx

end Sys2Proof
end

