-- ==== Sys2Proof/Certificates/Slice0/Obligations.lean ====
section
/-! DEFINITION. The statements for the provers, one definition each. R numbers are rules of spec/. "All registers" means
the six of R20; there is no memory (R50) and no program counter (R29), so no frame names either. The list of events to
come and the response port are the model's own form of R56 and R73 (notes/assumptions/1.md and 2.md). -/

open Sys2Proof Sys2Proof.Machine

/-! ## Encoding -/

/-- R70, R71, R72, R81: the word of every operation decodes to that operation, with every timestamp and every register
index, the reserved ones too. -/
def Obligations.DecodeInvertsEncode : Prop :=
  ∀ i : Instr, decode (encode i) = .op i

/-- R70, R71, R72, R77: what the decoder reads from any word, in the numbers of its fields: W[67:64] is `w / 2^64`,
W[63:0] is `w mod 2^64`, W[3:0] is `w mod 16`. -/
def Obligations.DecoderReadsOpcodeAndOperandFields : Prop :=
  ∀ w : OpWord,
    (w.toNat / 2 ^ 64 = 1 → decode w = .op .start) ∧
    (w.toNat / 2 ^ 64 = 2 → decode w = .op .arm) ∧
    (∀ ts : Timestamp, w.toNat / 2 ^ 64 = 3 → ts.toNat = w.toNat % 2 ^ 64 → decode w = .op (.edge ts)) ∧
    (w.toNat / 2 ^ 64 = 4 → decode w = .op .tmo) ∧
    (w.toNat / 2 ^ 64 = 5 → decode w = .op .fin) ∧
    (∀ idx : RegIndex, w.toNat / 2 ^ 64 = 6 → idx.toNat = w.toNat % 16 → decode w = .op (.rd idx)) ∧
    (∀ opcode : BitVec 4, w.toNat / 2 ^ 64 = opcode.toNat → (opcode.toNat = 0 ∨ 7 ≤ opcode.toNat) →
      decode w = .reservedOpcode opcode)

/-- Words of spec/95_test_vectors.md section 2.1. -/
def Obligations.SampleWordsDecode : Prop :=
  decode 0x1FFFFFFFFFFFFFFFF#68 = .op .start ∧
  decode 0x200000000DEADBEEF#68 = .op .arm ∧
  decode 0x300000000000003E8#68 = .op (.edge 1000) ∧
  decode 0x40000000000000000#68 = .op .tmo ∧
  decode 0x50000000000000000#68 = .op .fin ∧
  decode 0x6FFFFFFFFFFFFFFF3#68 = .op (.rd 3) ∧
  decode 0x00000000000000000#68 = .reservedOpcode 0 ∧
  decode 0xFFFFFFFFFFFFFFFFF#68 = .reservedOpcode 15

/-- R77: a word with a reserved opcode, the all-zero word among them, changes no register and answers ILLEGAL_OP. -/
def Obligations.ReservedOpcodesAnswerIllegalOp : Prop :=
  ∀ (s : State) (issuer : Agent) (w : OpWord) (rest : List Event),
    s.inputs = .word issuer w :: rest →
    (w.toNat / 2 ^ 64 = 0 ∨ 7 ≤ w.toNat / 2 ^ 64) →
    step s = .next { s with inputs := rest, response := some { code := .illegalOp, data := 0 } }

/-- R78: operand bits that a format does not read may hold any value; reserved indices answer ILLEGAL_OP; the encoder
writes the unread bits as zero. -/
def Obligations.UnreadOperandBitsChangeNothing : Prop :=
  (∀ (s : State) (issuer : Agent) (w w' : OpWord) (rest : List Event),
    w.toNat / 2 ^ 64 = w'.toNat / 2 ^ 64 →
    (w.toNat / 2 ^ 64 = 1 ∨ w.toNat / 2 ^ 64 = 2 ∨ w.toNat / 2 ^ 64 = 4 ∨ w.toNat / 2 ^ 64 = 5 ∨
      (w.toNat / 2 ^ 64 = 6 ∧ w.toNat % 16 = w'.toNat % 16)) →
    step { s with inputs := .word issuer w :: rest } = step { s with inputs := .word issuer w' :: rest }) ∧
  (∀ (s : State) (idx : RegIndex), 6 ≤ idx.toNat →
    exec (.rd idx) s = .next { s with response := some { code := .illegalOp, data := 0 } }) ∧
  (∀ i : Instr, i = .start ∨ i = .arm ∨ i = .tmo ∨ i = .fin → (encode i).toNat % 2 ^ 64 = 0) ∧
  (∀ idx : RegIndex, (encode (.rd idx)).toNat % 2 ^ 64 = idx.toNat)

/-- R73, R74: the two fields of the response word and the number of each code. -/
def Obligations.ResponseWordHoldsCodeAndData : Prop :=
  ∀ r : Response,
    r.word.toNat % 2 ^ 64 = r.data.toNat ∧
    r.word.toNat / 2 ^ 64 =
      match r.code with
      | .ok => 0
      | .busy => 1
      | .timeout => 2
      | .checksumMismatch => 3
      | .illegalState => 4
      | .illegalOp => 5

/-! ## The step -/

/-- R56, R178: a step on a presented word runs the operation the word decodes to, the word taken off the events to come;
nothing else is added around it. That events come from a list is the model's choice (notes/assumptions/1.md). -/
def Obligations.StepRunsTheDecodedOperation : Prop :=
  ∀ (s : State) (issuer : Agent) (w : OpWord) (rest : List Event) (i : Instr),
    s.inputs = .word issuer w :: rest → decode w = .op i →
    step s = exec i { s with inputs := rest }

/-- R130, R172: every operation, in every state, answers a next state, and so does every step: nothing is refused, stalled
or faulted. That a step with nothing presented answers one too is the model's choice (notes/assumptions/3.md). -/
def Obligations.EveryStepAnswersANextState : Prop :=
  (∀ (i : Instr) (s : State), ∃ t, exec i s = .next t) ∧ ∀ s : State, ∃ t, step s = .next t

/-- R200: reset in any state puts all six registers to their reset values; its effect on the registers is that of an accepted
START; afterwards ARM is accepted and an EDGE ignored. `State.reset` holds the same values. The clause `response := none`
is the model's choice (DESIGN CHOICE, notes/assumptions/2.md) and follows from no rule: R200 says that reset has no
response word, not what the response port holds after it. -/
def Obligations.ResetClearsAllRegisters : Prop :=
  (∀ (s : State) (rest : List Event), s.inputs = .reset :: rest →
    ∃ t, step s = .next t ∧
      t = { s with session := .idle, edgeCount := 0, lastEdgeTime := 0, rawFrame := 0, rawChecksum := 0,
                   done := false, response := none, inputs := rest } ∧
      (∀ u v, u.session ≠ .capturing → exec .start u = .next v → SameRegisters t v) ∧
      exec .arm t = .next { t with session := .handshaking, response := some { code := .ok, data := 0 } } ∧
      ∀ ts, exec (.edge ts) t = .next { t with response := some { code := .ok, data := 0 } }) ∧
  State.reset.session = .idle ∧ State.reset.edgeCount = 0 ∧ State.reset.lastEdgeTime = 0 ∧
  State.reset.rawFrame = 0 ∧ State.reset.rawChecksum = 0 ∧ State.reset.done = false

/-! ## Session control -/

/-- R100: START. -/
def Obligations.StartResetsUnlessCapturing : Prop :=
  ∀ s : State,
    (s.session = .capturing →
      exec .start s = .next { s with response := some { code := .busy, data := 0 } }) ∧
    (s.session ≠ .capturing →
      exec .start s = .next
        { s with session := .idle, edgeCount := 0, lastEdgeTime := 0, rawFrame := 0, rawChecksum := 0,
                 done := false, response := some { code := .ok, data := 0 } })

/-- R103: ARM. -/
def Obligations.ArmOnlyFromIdle : Prop :=
  ∀ s : State,
    (s.session = .idle →
      exec .arm s = .next { s with session := .handshaking, response := some { code := .ok, data := 0 } }) ∧
    (s.session ≠ .idle →
      exec .arm s = .next { s with response := some { code := .illegalState, data := s.session.code.setWidth 64 } }) ∧
    (∀ t, s.session = .idle → exec .arm s = .next t →
      exec .arm t = .next { t with response := some { code := .illegalState, data := 1 } })

/-- R106: TMO, and an EDGE ordered right after a TMO that closed the capture: it is ignored. That DONE is 0 before and
after is StepKeepsTheRegisterInvariant. -/
def Obligations.TmoClosesAnOpenCapture : Prop :=
  ∀ s : State,
    (s.session = .handshaking ∨ s.session = .capturing →
      exec .tmo s = .next { s with session := .timedOut, response := some { code := .timeout, data := 0 } }) ∧
    (s.session ≠ .handshaking → s.session ≠ .capturing →
      exec .tmo s = .next { s with response := some { code := .illegalState, data := s.session.code.setWidth 64 } }) ∧
    (∀ t ts, s.session = .handshaking ∨ s.session = .capturing → exec .tmo s = .next t →
      exec (.edge ts) t = .next { t with response := some { code := .ok, data := 0 } })

/-- R108: FIN. The validator, the decoder and the packing have statements of their own. -/
def Obligations.FinValidatesThenDecodes : Prop :=
  ∀ s : State,
    (s.session ≠ .complete →
      exec .fin s = .next { s with response := some { code := .illegalState, data := s.session.code.setWidth 64 } }) ∧
    (s.session = .complete → cksumValidate s.rawFrame s.rawChecksum = true →
      exec .fin s = .next
        { s with response := some { code := .ok, data := pack (decodeReading s.rawFrame true) } }) ∧
    (s.session = .complete → cksumValidate s.rawFrame s.rawChecksum = false →
      exec .fin s = .next
        { s with session := .checksumInvalid,
                 response := some { code := .checksumMismatch, data := pack (decodeReading s.rawFrame false) } })

/-- R109: FIN repeated after OK answers the same and changes nothing; after a mismatch it is refused; it is refused in
every other state; a successful FIN stays in `Complete`. -/
def Obligations.FinRepeatsOrIsRefused : Prop :=
  ∀ s t : State, exec .fin s = .next t →
    (t.lastCode = .ok → t.session = .complete ∧ exec .fin t = .next t) ∧
    (t.lastCode = .checksumMismatch →
      exec .fin t = .next { t with response := some { code := .illegalState, data := 5 } }) ∧
    (s.session = .capturing ∨ s.session = .handshaking ∨ s.session = .idle ∨ s.session = .timedOut →
      t.lastCode = .illegalState ∧ SameRegisters s t)

/-- R112: the transition table, for every operation in every state the invariant of R32 allows, and for reset in any state.
Pairs not listed leave STATE unchanged. -/
def Obligations.SessionMovesOnlyByTheTable : Prop :=
  (∀ (i : Instr) (s t : State), RegisterInv s → exec i s = .next t →
    t.session =
      match i with
      | .start => if s.session = .capturing then .capturing else .idle
      | .arm => if s.session = .idle then .handshaking else s.session
      | .edge _ =>
        if s.session = .handshaking then .capturing
        else if s.session = .capturing then
          if s.edgeCount.toNat + 1 < 50 then .capturing else .complete
        else s.session
      | .tmo => if s.session = .capturing ∨ s.session = .handshaking then .timedOut else s.session
      | .fin =>
        if s.session = .complete ∧ cksumValidate s.rawFrame s.rawChecksum = false then .checksumInvalid
        else s.session
      | .rd _ => s.session) ∧
  (∀ (s t : State) (rest : List Event), s.inputs = .reset :: rest → step s = .next t → t.session = .idle)

/-- R113: the response code of each operation in each state; where the table shows no change of a register, none
changes. -/
def Obligations.ResponsesFollowTheAcceptanceTable : Prop :=
  ∀ (i : Instr) (s t : State), exec i s = .next t →
    t.lastCode =
      (match i, s.session with
        | .start, .capturing => .busy
        | .start, _ => .ok
        | .arm, .idle => .ok
        | .arm, _ => .illegalState
        | .edge _, _ => .ok
        | .tmo, .handshaking => .timeout
        | .tmo, .capturing => .timeout
        | .tmo, _ => .illegalState
        | .fin, .complete => if cksumValidate s.rawFrame s.rawChecksum then .ok else .checksumMismatch
        | .fin, _ => .illegalState
        | .rd idx, _ => if idx.toNat ≤ 5 then .ok else .illegalOp) ∧
    (t.lastCode = .busy ∨ t.lastCode = .illegalState ∨ t.lastCode = .illegalOp ∨
        (t.lastCode = .ok ∧
          ((∃ idx, i = .rd idx) ∨ i = .fin ∨
            ((∃ ts, i = .edge ts) ∧ s.session ≠ .handshaking ∧ s.session ≠ .capturing))) →
      SameRegisters s t)

/-! ## Edge capture -/

/-- R120: EDGE, by the ordinal `n = EDGE_COUNT + 1`. `bit` is the classification of the time since LAST_EDGE_TIME modulo
2^64; THRESHOLD_US is the hardware's constant. -/
def Obligations.EdgeFollowsItsOrdinal : Prop :=
  ∀ (s : State) (ts : Timestamp),
    let n := s.edgeCount.toNat + 1
    let bit : Nat := if (ts - s.lastEdgeTime).toNat > Config.thresholdUs.toNat then 1 else 0
    let answer : Option Response := some { code := .ok, data := 0 }
    (s.session ≠ .handshaking → s.session ≠ .capturing →
      exec (.edge ts) s = .next { s with response := answer }) ∧
    (s.session = .handshaking ∨ s.session = .capturing →
      (n = 1 → exec (.edge ts) s = .next { s with session := .capturing, edgeCount := 1, response := answer }) ∧
      (n = 2 → exec (.edge ts) s = .next
        { s with session := .capturing, edgeCount := 2, lastEdgeTime := ts, response := answer }) ∧
      (3 ≤ n → n ≤ 42 → exec (.edge ts) s = .next
        { s with session := .capturing, edgeCount := BitVec.ofNat 32 n, lastEdgeTime := ts,
                 rawFrame := BitVec.ofNat 40 (2 * s.rawFrame.toNat + bit), response := answer }) ∧
      (43 ≤ n → n ≤ 49 → exec (.edge ts) s = .next
        { s with session := .capturing, edgeCount := BitVec.ofNat 32 n, lastEdgeTime := ts,
                 rawChecksum := BitVec.ofNat 8 (2 * s.rawChecksum.toNat + bit), response := answer }) ∧
      (n = 50 → exec (.edge ts) s = .next
        { s with session := .complete, edgeCount := 50, lastEdgeTime := ts, done := true,
                 rawChecksum := BitVec.ofNat 8 (2 * s.rawChecksum.toNat + bit), response := answer }))

/-- R121: the classifier compares strictly and unsigned with THRESHOLD_US; `One` is the bit 1 and `Zero` the bit 0; its
values for THRESHOLD_US = 100 (notes/assumptions/6.md). -/
def Obligations.ClassifierIsAStrictThreshold : Prop :=
  (∀ delta : Timestamp,
    (delta.toNat > Config.thresholdUs.toNat → classify delta = .one) ∧
    (delta.toNat ≤ Config.thresholdUs.toNat → classify delta = .zero)) ∧
  bitOf .one = 1 ∧ bitOf .zero = 0 ∧
  Config.thresholdUs = 100 ∧
  classify 0 = .zero ∧ classify 100 = .zero ∧ classify 101 = .one ∧ classify (BitVec.ofNat 64 (2 ^ 64 - 1)) = .one

/-- R122: the duration is the difference modulo 2^64; a monotonic clock makes the reduction change nothing; an earlier
timestamp wraps to at least 2^64 - LAST_EDGE_TIME and classifies as `One` unless it is earlier by nearly 2^64; equal
timestamps give 0 and the bit 0; no timestamp raises an error. -/
def Obligations.DurationIsModuloTwoTo64 : Prop :=
  ∀ (s : State) (ts : Timestamp),
    ((deltaOf s ts).toNat : Int) = ((ts.toNat : Int) - s.lastEdgeTime.toNat) % 2 ^ 64 ∧
    (s.lastEdgeTime.toNat ≤ ts.toNat → (deltaOf s ts).toNat = ts.toNat - s.lastEdgeTime.toNat) ∧
    (ts.toNat < s.lastEdgeTime.toNat →
      2 ^ 64 - s.lastEdgeTime.toNat ≤ (deltaOf s ts).toNat ∧
      (s.lastEdgeTime.toNat - ts.toNat < 2 ^ 64 - Config.thresholdUs.toNat → classify (deltaOf s ts) = .one)) ∧
    (ts = s.lastEdgeTime → (deltaOf s ts).toNat = 0 ∧ classify (deltaOf s ts) = .zero) ∧
    ∃ t, exec (.edge ts) s = .next t ∧ t.response = some { code := .ok, data := 0 }

/-- R127: any number of EDGE words, from either agent, that find `Idle`, `Complete`, `TimedOut` or `ChecksumInvalid` change
no register, and each answers OK with data 0. -/
def Obligations.EdgesOutsideACaptureAreIgnored : Prop :=
  ∀ (k : Nat) (s : State), s.session ≠ .handshaking → s.session ≠ .capturing →
    1 ≤ k → k ≤ s.inputs.length → (∀ e ∈ s.inputs.take k, e.isEdge = true) →
    core.run k s = .next { s with response := some { code := .ok, data := 0 }, inputs := s.inputs.drop k }

/-- R51, R120, R124, R125, R126: the 50 EDGE words of a capture, with any timestamps, end it: the bit at frame position k
is the classification of the time between edge k + 1 and edge k + 2, and lands in RAW_FRAME[40 - k] or
RAW_CHECKSUM[48 - k], most significant first; edge 1's timestamp has no effect. `times n` is the timestamp of edge n. -/
def Obligations.FiftyEdgesCompleteTheCapture : Prop :=
  ∀ (s : State) (times : Nat → Timestamp) (rest : List Event),
    s.session = .handshaking → s.edgeCount = 0 →
    s.inputs = (List.range 50).map (fun j => Event.word .producer (encode (.edge (times (j + 1))))) ++ rest →
    ∃ (F : Frame) (C : Byte),
      core.run 50 s = .next
        { session := .complete, edgeCount := 50, lastEdgeTime := times 50, rawFrame := F, rawChecksum := C,
          done := true, response := some { code := .ok, data := 0 }, inputs := rest } ∧
      (∀ k, 1 ≤ k → k ≤ 40 →
        F.getLsbD (40 - k) = decide ((times (k + 2) - times (k + 1)).toNat > Config.thresholdUs.toNat)) ∧
      (∀ k, 41 ≤ k → k ≤ 48 →
        C.getLsbD (48 - k) = decide ((times (k + 2) - times (k + 1)).toNat > Config.thresholdUs.toNat))

/-- R82: a FRAME line that chooses `S <= THRESHOLD_US < L` assembles to 50 EDGE words: `t0`, `t0 + pre`, then one word per
bit of `{b1, b2, b3, b4, b5, ck}`, most significant first, L after the one before it for a 1 and S for a 0. -/
def Obligations.FrameLineExpandsToFiftyEdges : Prop :=
  ∀ (prev : Option Timestamp) (t0 pre short long : Timestamp) (b1 b2 b3 b4 b5 ck : Byte),
    short.toNat ≤ Config.thresholdUs.toNat → Config.thresholdUs.toNat < long.toNat →
    ∃ times : Nat → Timestamp,
      assemble prev [.frame t0 pre short long b1 b2 b3 b4 b5 ck] =
        some ((List.range 50).map fun j => encode (.edge (times (j + 1)))) ∧
      times 1 = t0 ∧ times 2 = t0 + pre ∧
      ∀ k, 1 ≤ k → k ≤ 48 →
        times (k + 2) = times (k + 1) +
          (if (b1 ++ b2 ++ b3 ++ b4 ++ b5 ++ ck).getLsbD (48 - k) then long else short)

/-- E4 of spec/95_test_vectors.md (vector S1), for every state that is not `Capturing`: START, ARM, the 50 EDGE words of a
FRAME line whose checksum byte is the sum of its data bytes modulo 256, FIN. All four data bytes, the pad byte, the start
time, the preamble and both durations are arbitrary. -/
def Obligations.EveryFrameRoundTrips : Prop :=
  ∀ (s : State) (t0 pre short long : Timestamp) (b1 b2 b3 b4 pad ck : Byte) (words : List OpWord) (rest : List Event),
    s.session ≠ .capturing →
    short.toNat ≤ Config.thresholdUs.toNat → Config.thresholdUs.toNat < long.toNat →
    ck.toNat = (b1.toNat + b2.toNat + b3.toNat + b4.toNat) % 256 →
    assemble none [.op .start, .op .arm, .frame t0 pre short long b1 b2 b3 b4 pad ck, .op .fin] = some words →
    s.inputs = words.map (fun w => Event.word (presenter w) w) ++ rest →
    words.length = 53 ∧
    ∃ t r, core.run 53 s = .next t ∧
      t.session = .complete ∧ t.edgeCount = 50 ∧ t.done = true ∧ t.inputs = rest ∧
      t.rawFrame = b1 ++ b2 ++ b3 ++ b4 ++ pad ∧ t.rawChecksum = ck ∧
      t.response = some r ∧ r.code = .ok ∧
      r.data.toNat % 2 ^ 16 = 256 * b1.toNat + b2.toNat ∧
      (r.data.extractLsb' 16 16).toInt =
        (if b3.toNat < 128 then (256 * b3.toNat + b4.toNat : Int) else -(256 * (b3.toNat - 128) + b4.toNat : Int)) ∧
      r.data.toNat / 2 ^ 32 = 1

/-! ## Checksum and reading -/

/-- R140: the checksum is the byte sum modulo 256; reducing each partial sum gives the same; the order of the operands
does not matter. -/
def Obligations.ChecksumIsTheTruncatedByteSum : Prop :=
  ∀ b1 b2 b3 b4 : Byte,
    (cksumCompute b1 b2 b3 b4).toNat = (b1.toNat + b2.toNat + b3.toNat + b4.toNat) % 256 ∧
    (cksumCompute b1 b2 b3 b4).toNat = (((b1.toNat + b2.toNat) % 256 + b3.toNat) % 256 + b4.toNat) % 256 ∧
    cksumCompute b2 b1 b3 b4 = cksumCompute b1 b2 b3 b4 ∧
    cksumCompute b2 b3 b4 b1 = cksumCompute b1 b2 b3 b4

/-- R141: the validator compares the sum of F[39:32], F[31:24], F[23:16], F[15:8] with the transmitted byte; F[7:0] does not
enter. -/
def Obligations.ValidatorSumsTheFourDataBytes : Prop :=
  ∀ (F : Frame) (C : Byte),
    cksumValidate F C = true ↔
      (F.toNat / 2 ^ 32 % 256 + F.toNat / 2 ^ 24 % 256 + F.toNat / 2 ^ 16 % 256 + F.toNat / 2 ^ 8 % 256) % 256 = C.toNat

/-- R142: flipping any single bit of the four data bytes is detected; a flipped pad bit is not; flips of the same bit in two
data bytes, set in one and cleared in the other, cancel; for every data there is a transmitted checksum that passes. The
spec derives this from R140: "This follows from rule R140". -/
def Obligations.SingleDataBitFlipIsDetected : Prop :=
  ∀ (F : Frame) (C : Byte),
    (∀ j, 8 ≤ j → j < 40 → cksumValidate F C = true → cksumValidate (F ^^^ (1#40 <<< j)) C = false) ∧
    (∀ j, j < 8 → cksumValidate (F ^^^ (1#40 <<< j)) C = cksumValidate F C) ∧
    (∀ j m, 8 ≤ j → j < m → m < 40 → (m - j) % 8 = 0 → F.getLsbD j ≠ F.getLsbD m →
      cksumValidate (F ^^^ (1#40 <<< j) ^^^ (1#40 <<< m)) C = cksumValidate F C) ∧
    ∃ C', cksumValidate F C' = true

/-- R151: humidity is `{h_hi, h_lo}`, RAW_FRAME[39:24], unscaled and unchecked; every value 0 to 65535 can result. -/
def Obligations.HumidityIsTheFirstTwoBytes : Prop :=
  (∀ F : Frame, humidityOf F = F.toNat / 2 ^ 24) ∧ (∀ F : Frame, humidityOf F ≤ 65535) ∧
    ∀ v, v ≤ 65535 → ∃ F : Frame, humidityOf F = v

/-- R152: temperature is sign and magnitude: RAW_FRAME[23] is the sign, RAW_FRAME[22:8] the magnitude; -32768 is never
produced; the sign of a zero magnitude is lost; both extremes are reached. -/
def Obligations.TemperatureIsSignAndMagnitude : Prop :=
  (∀ F : Frame,
    (F.getLsbD 23 = false → temperatureOf F = (F.toNat / 2 ^ 8 % 2 ^ 15 : Nat)) ∧
    (F.getLsbD 23 = true → temperatureOf F = -((F.toNat / 2 ^ 8 % 2 ^ 15 : Nat) : Int)) ∧
    -32767 ≤ temperatureOf F ∧ temperatureOf F ≤ 32767 ∧
    (F.toNat / 2 ^ 8 % 2 ^ 15 = 0 → temperatureOf F = 0)) ∧
  (∃ F, temperatureOf F = 32767) ∧ ∃ F, temperatureOf F = -32767

/-- R76, R153: the fields of FIN's data: humidity, temperature in two's complement (never 0x8000), checksum_ok, zero. -/
def Obligations.PackedReadingFields : Prop :=
  ∀ (F : Frame) (ok : Bool),
    (pack (decodeReading F ok)).toNat % 2 ^ 16 = humidityOf F ∧
    ((pack (decodeReading F ok)).extractLsb' 16 16).toInt = temperatureOf F ∧
    (F.getLsbD 23 = true →
      (pack (decodeReading F ok)).toNat / 2 ^ 16 % 2 ^ 16 = (2 ^ 16 - F.toNat / 2 ^ 8 % 2 ^ 15) % 2 ^ 16) ∧
    (pack (decodeReading F ok)).toNat / 2 ^ 16 % 2 ^ 16 ≠ 0x8000 ∧
    (pack (decodeReading F ok)).toNat / 2 ^ 32 = if ok then 1 else 0

/-- R26, R141, R150: the pad byte RAW_FRAME[7:0] is read by neither the validator nor the decoder: two states that differ
only in it answer FIN alike and move STATE alike. -/
def Obligations.PadByteIsNeverRead : Prop :=
  ∀ (s : State) (F : Frame), F.toNat / 256 = s.rawFrame.toNat / 256 →
    ∃ t t', exec .fin s = .next t ∧ exec .fin { s with rawFrame := F } = .next t' ∧
      t'.response = t.response ∧ t'.session = t.session

/-! ## Read-back -/

/-- R160, R161: RD answers the register zero-extended to 64 bits, in every state, and writes none; reserved indices answer
ILLEGAL_OP with data 0; a word with operand 0x13 is RD 3. -/
def Obligations.ReadBackReturnsTheRegister : Prop :=
  (∀ s : State,
    let answer (v : Nat) : Host.Outcome State Fault Refusal :=
      .next { s with response := some { code := .ok, data := BitVec.ofNat 64 v } }
    exec (.rd 0) s = answer (match s.session with
      | .idle => 0
      | .handshaking => 1
      | .capturing => 2
      | .complete => 3
      | .timedOut => 4
      | .checksumInvalid => 5) ∧
    exec (.rd 1) s = answer s.edgeCount.toNat ∧
    exec (.rd 2) s = answer s.lastEdgeTime.toNat ∧
    exec (.rd 3) s = answer s.rawFrame.toNat ∧
    exec (.rd 4) s = answer s.rawChecksum.toNat ∧
    exec (.rd 5) s = answer (if s.done then 1 else 0) ∧
    ∀ idx : RegIndex, 6 ≤ idx.toNat →
      exec (.rd idx) s = .next { s with response := some { code := .illegalOp, data := 0 } }) ∧
  decode 0x60000000000000013#68 = .op (.rd 3)

/-- R21, R54: a read never changes state and may be repeated or omitted: any number of RD words before an operation change
nothing in that operation's outcome. -/
def Obligations.ReadsMayBeOmitted : Prop :=
  ∀ (idxs : List RegIndex) (s : State) (i : Instr),
    exec i (idxs.foldl (fun u idx => issue (.rd idx) u) s) = exec i s

/-! ## The whole machine -/

/-- R32: every step keeps the invariant, whatever is presented. -/
def Obligations.StepKeepsTheRegisterInvariant : Prop :=
  ∀ s t : State, RegisterInv s → step s = .next t → RegisterInv t

/-- R32, R35: the invariant holds right after reset. -/
def Obligations.ResetMeetsTheRegisterInvariant : Prop :=
  RegisterInv State.reset

/-- R32: in every state reachable by any events in any order, EDGE_COUNT is at most 50, DONE = 1 exactly when STATE is
`Complete` or `ChecksumInvalid`, and `Capturing` has seen 1 to 49 edges. -/
def Obligations.ReachableStatesCountTheirEdges : Prop :=
  ∀ s : State, Reachable s →
    RegisterInv s ∧ s.edgeCount.toNat ≤ 50 ∧
    (s.done = true ↔ s.session = .complete ∨ s.session = .checksumInvalid) ∧
    (s.session = .capturing → 1 ≤ s.edgeCount.toNat ∧ s.edgeCount.toNat ≤ 49) ∧
    s.rawFrame.toNat < 2 ^ (min s.edgeCount.toNat 42 - 2) ∧
    s.rawChecksum.toNat < 2 ^ (s.edgeCount.toNat - 42)

/-- R21, R54: what each operation leaves unchanged, in every state. Only START, ARM, EDGE, TMO and FIN change a register,
and only the registers named here; the events to come are untouched by every operation. -/
def Obligations.OperationsLeaveTheirFrame : Prop :=
  ∀ (i : Instr) (s t : State), exec i s = .next t →
    t.inputs = s.inputs ∧
    match i with
    | .start => s.session = .capturing → SameRegisters s t
    | .edge _ =>
      (s.session ≠ .handshaking → s.session ≠ .capturing → SameRegisters s t) ∧
      (s.edgeCount.toNat + 1 = 1 → t.lastEdgeTime = s.lastEdgeTime) ∧
      (s.edgeCount.toNat + 1 ≤ 2 → t.rawFrame = s.rawFrame ∧ t.rawChecksum = s.rawChecksum) ∧
      (s.edgeCount.toNat + 1 ≤ 42 → t.rawChecksum = s.rawChecksum) ∧
      (43 ≤ s.edgeCount.toNat + 1 → t.rawFrame = s.rawFrame) ∧
      (s.edgeCount.toNat + 1 ≠ 50 → t.done = s.done)
    | .rd _ => SameRegisters s t
    | .arm | .tmo | .fin =>
      t.edgeCount = s.edgeCount ∧ t.lastEdgeTime = s.lastEdgeTime ∧ t.rawFrame = s.rawFrame ∧
        t.rawChecksum = s.rawChecksum ∧ t.done = s.done

/-- R28, R175: DONE is set by the EDGE with ordinal 50 and by nothing else, and cleared by an accepted START and by reset
and by nothing else. -/
def Obligations.DoneIsSetByEdge50AndClearedByStartOrReset : Prop :=
  ∀ s t : State, step s = .next t →
    (s.done = false → (t.done = true ↔
      (s.session = .handshaking ∨ s.session = .capturing) ∧ s.edgeCount.toNat + 1 = 50 ∧
        ∃ e rest, s.inputs = e :: rest ∧ e.isEdge = true)) ∧
    (s.done = true → (t.done = false ↔
      ∃ e rest, s.inputs = e :: rest ∧
        (e = .reset ∨ (e.instr? = some .start ∧ s.session ≠ .capturing))))

/-- R24, R29: EDGE_COUNT advances by exactly 1 per accepted EDGE, goes back only to 0, on an accepted START or reset, and
never wraps. -/
def Obligations.EdgeCountAdvancesByOne : Prop :=
  ∀ s t : State, RegisterInv s → step s = .next t →
    ((s.session = .handshaking ∨ s.session = .capturing) → (∃ e rest, s.inputs = e :: rest ∧ e.isEdge = true) →
      t.edgeCount.toNat = s.edgeCount.toNat + 1) ∧
    (t.edgeCount ≠ s.edgeCount →
      (t.edgeCount.toNat = s.edgeCount.toNat + 1 ∧ ∃ e rest, s.inputs = e :: rest ∧ e.isEdge = true) ∨
      (t.edgeCount = 0 ∧ ∃ e rest, s.inputs = e :: rest ∧ e.endsSession = true))

/-- R57: while `Capturing`, an operation other than EDGE and TMO changes no register, and TMO always closes the window: it
changes STATE alone, to `TimedOut`. An EDGE changes nothing unless STATE is `Handshaking` or `Capturing`, and in `Handshaking`
it opens the window and writes nothing else but the count. ARM writes only from `Idle` and FIN only in `Complete`. START is
refused with BUSY. -/
def Obligations.OnlyEdgeAndTmoWriteDuringCapture : Prop :=
  ∀ (i : Instr) (s t : State), exec i s = .next t →
    (s.session = .capturing →
      (∃ ts, i = .edge ts) ∨
      (i = .tmo ∧ t = { s with session := .timedOut, response := some { code := .timeout, data := 0 } }) ∨
      (i ≠ .tmo ∧ SameRegisters s t)) ∧
    (s.session = .capturing → i = .start → t.lastCode = .busy ∧ SameRegisters s t) ∧
    (s.session ≠ .handshaking → s.session ≠ .capturing → (∃ ts, i = .edge ts) → SameRegisters s t) ∧
    (s.session = .handshaking → RegisterInv s → (∃ ts, i = .edge ts) →
      SameRegisters { s with session := .capturing, edgeCount := 1 } t) ∧
    (s.session ≠ .idle → i = .arm → SameRegisters s t) ∧
    (s.session ≠ .complete → i = .fin → SameRegisters s t)

/-- R181: under the discipline that each agent issues its own operations only, a word of the producer changes the session
only in `Handshaking` and `Capturing`, and a word of the consumer changes it in `Capturing` only by closing the window. -/
def Obligations.EachContextWritesOnlyInItsWindow : Prop :=
  ∀ (s t : State) (issuer : Agent) (w : OpWord) (rest : List Event),
    AgentDiscipline s → s.inputs = .word issuer w :: rest → step s = .next t →
    AgentDiscipline t ∧
    (issuer = .producer → s.session ≠ .handshaking → s.session ≠ .capturing → SameRegisters s t) ∧
    (issuer = .consumer → s.session = .capturing →
      SameRegisters s t ∨
        (t.session = .timedOut ∧ t.edgeCount = s.edgeCount ∧ t.lastEdgeTime = s.lastEdgeTime ∧
          t.rawFrame = s.rawFrame ∧ t.rawChecksum = s.rawChecksum ∧ t.done = s.done))

/-- R58: from the moment DONE is observed at 1, in a state the invariant of R32 allows, RAW_FRAME, RAW_CHECKSUM and every
other register but STATE stay as they are through any further events, in any order, that hold no START and no reset. -/
def Obligations.CompletedFrameStaysUntilTheNextSession : Prop :=
  ∀ (k : Nat) (s t : State), RegisterInv s → s.done = true →
    (∀ e ∈ s.inputs.take k, e.endsSession = false) → core.run k s = .next t →
    t.rawFrame = s.rawFrame ∧ t.rawChecksum = s.rawChecksum ∧ t.edgeCount = s.edgeCount ∧
      t.lastEdgeTime = s.lastEdgeTime ∧ t.done = true ∧ (t.session = .complete ∨ t.session = .checksumInvalid)

/-- R170, R179: each error code comes from the operation and in the states its line names, and from no other, records the
value the line gives, and has changed exactly the registers the line lists. -/
def Obligations.ErrorsChangeOnlyWhatTheyList : Prop :=
  (∀ (i : Instr) (s t : State), exec i s = .next t → ∃ r, t.response = some r ∧
    (r.code = .busy ↔ i = .start ∧ s.session = .capturing) ∧
    (r.code = .timeout ↔ i = .tmo ∧ (s.session = .handshaking ∨ s.session = .capturing)) ∧
    (r.code = .checksumMismatch ↔
      i = .fin ∧ s.session = .complete ∧ cksumValidate s.rawFrame s.rawChecksum = false) ∧
    (r.code = .illegalState ↔
      (i = .arm ∧ s.session ≠ .idle) ∨ (i = .tmo ∧ s.session ≠ .handshaking ∧ s.session ≠ .capturing) ∨
        (i = .fin ∧ s.session ≠ .complete)) ∧
    (r.code = .illegalOp ↔ ∃ idx : RegIndex, 6 ≤ idx.toNat ∧ i = .rd idx) ∧
    (r.code = .busy → r.data = 0 ∧ SameRegisters s t) ∧
    (r.code = .timeout → r.data = 0 ∧ SameRegisters { s with session := .timedOut } t) ∧
    (r.code = .checksumMismatch →
      r.data = pack (decodeReading s.rawFrame false) ∧ SameRegisters { s with session := .checksumInvalid } t) ∧
    (r.code = .illegalState → r.data = s.session.code.setWidth 64 ∧ SameRegisters s t) ∧
    (r.code = .illegalOp → r.data = 0 ∧ SameRegisters s t)) ∧
  (∀ (s t : State) (issuer : Agent) (w : OpWord) (opcode : BitVec 4) (rest : List Event),
    s.inputs = .word issuer w :: rest → decode w = .reservedOpcode opcode → step s = .next t →
    t.response = some { code := .illegalOp, data := 0 } ∧ SameRegisters s t)

/-- R56, R106, R178: both orders of each pair of words that the two agents may issue with no order between them, and what
each order leaves: EDGE 50 against TMO, EDGE against START in `Handshaking`, EDGE 1 against TMO in `Handshaking`. -/
def Obligations.BothOrdersOfARaceAreAdmitted : Prop :=
  ∀ (s : State) (ts : Timestamp) (rest : List Event),
    let edge := Event.word .producer (encode (.edge ts))
    let after (first second : Event) := core.run 2 { s with inputs := first :: second :: rest }
    (s.session = .capturing → s.edgeCount = 49 →
      (∃ t, after edge (.word .consumer (encode .tmo)) = .next t ∧ t.session = .complete ∧ t.edgeCount = 50 ∧
        t.done = true ∧ t.response = some { code := .illegalState, data := 3 }) ∧
      (∃ t, after (.word .consumer (encode .tmo)) edge = .next t ∧ t.session = .timedOut ∧ t.edgeCount = 49 ∧
        t.done = s.done ∧ t.rawFrame = s.rawFrame ∧ t.rawChecksum = s.rawChecksum)) ∧
    (s.session = .handshaking → s.edgeCount = 0 →
      (∃ t, after (.word .consumer (encode .start)) edge = .next t ∧ t.session = .idle ∧ t.edgeCount = 0) ∧
      (∃ t, after edge (.word .consumer (encode .start)) = .next t ∧ t.session = .capturing ∧ t.edgeCount = 1 ∧
        t.lastCode = .busy) ∧
      (∃ t, after edge (.word .consumer (encode .tmo)) = .next t ∧ t.session = .timedOut ∧ t.edgeCount = 1) ∧
      (∃ t, after (.word .consumer (encode .tmo)) edge = .next t ∧ t.session = .timedOut ∧ t.edgeCount = 0))

/-- R202: nothing carries over from one cycle to the next: after an accepted START two machines that were in any states
answer the same further events alike, for any number of steps. -/
def Obligations.NothingCarriesOverAnAcceptedStart : Prop :=
  ∀ (k : Nat) (s s' : State) (issuer : Agent) (w : OpWord) (rest : List Event),
    s.session ≠ .capturing → s'.session ≠ .capturing → decode w = .op .start →
    core.run (k + 1) { s with inputs := .word issuer w :: rest } =
      core.run (k + 1) { s' with inputs := .word issuer w :: rest }

/-- R80: the block does not know which agent issued a word: two runs whose events differ only in that end with the same
registers and the same response. -/
def Obligations.IssuerIsInvisibleToTheBlock : Prop :=
  ∀ (k : Nat) (s t : State) (events : List Event), List.Forall₂ Event.sameWord s.inputs events →
    core.run k s = .next t →
    ∃ t', core.run k { s with inputs := events } = .next t' ∧ SameRegisters t t' ∧ t'.response = t.response

/-- R122, R208 (U2 of spec/93_implementation_defined.md): while the host keeps the timestamps monotonic, every step keeps
them so, and the duration of every EDGE that has a reference time is the plain difference: the subtraction never wraps. -/
def Obligations.MonotonicTimestampsNeverWrap : Prop :=
  ∀ s : State, MonotonicTimestamps s →
    (∀ t, step s = .next t → MonotonicTimestamps t) ∧
    (∀ issuer w rest ts, s.inputs = .word issuer w :: rest → decode w = .op (.edge ts) → 2 ≤ s.edgeCount.toNat →
      s.lastEdgeTime.toNat ≤ ts.toNat ∧ (deltaOf s ts).toNat = ts.toNat - s.lastEdgeTime.toNat)

/-! ## The read cycle -/

/-- R186: an operation that ends a read cycle leaves STATE `TimedOut`, `Complete` or `ChecksumInvalid`, and its response is
the result of the cycle. -/
def Obligations.ReadCyclesEndInAnOutcomeState : Prop :=
  ∀ (i : Instr) (s t : State), exec i s = .next t → endsCycle i t.lastCode = true →
    (t.lastCode = .timeout ∧ t.session = .timedOut) ∨ (t.lastCode = .ok ∧ t.session = .complete) ∨
      (t.lastCode = .checksumMismatch ∧ t.session = .checksumInvalid)

/-- R114, R177, R186: the outcome of one whole read cycle, from any state, for any timestamps. It is BUSY exactly while
`Capturing`, with no register changed; TIMEOUT when fewer than 50 edges arrive in all, the count kept; otherwise, also
when the 50th edge slips in between the host's last look at DONE and its TMO, the reading of the captured frame, OK or
CHECKSUM_MISMATCH as the checksum says. That the deadline is where the two lists part is the model's choice
(notes/assumptions/15.md). -/
def Obligations.ReadCycleHasExactlyTheSpecifiedOutcomes : Prop :=
  ∀ (s : State) (times late : List Timestamp),
    let t := readCycle times late s
    (s.session = .capturing → t = { s with response := some { code := .busy, data := 0 } }) ∧
    (s.session ≠ .capturing → times.length + late.length < 50 →
      t.session = .timedOut ∧ t.edgeCount.toNat = times.length + late.length ∧ t.done = false ∧
        t.response = some { code := .timeout, data := 0 }) ∧
    (s.session ≠ .capturing → 50 ≤ times.length + late.length →
      t.edgeCount = 50 ∧ t.done = true ∧
      (cksumValidate t.rawFrame t.rawChecksum = true → t.session = .complete ∧
        t.response = some { code := .ok, data := pack (decodeReading t.rawFrame true) }) ∧
      (cksumValidate t.rawFrame t.rawChecksum = false → t.session = .checksumInvalid ∧
        t.response = some { code := .checksumMismatch, data := pack (decodeReading t.rawFrame false) }))
end

