-- ==== Sys2Proof/Laws/State.lean ====
section
/-! SUPPORT. What each field of State is after each update: one lemma per field per update, true by rfl, so that no proof
unfolds a record update. -/

namespace Sys2Proof.Machine

@[simp] theorem State.setSession_session (s : State) (v : SessionState) :
    (s.setSession v).session = v := rfl
@[simp] theorem State.setSession_edgeCount (s : State) (v : SessionState) :
    (s.setSession v).edgeCount = s.edgeCount := rfl
@[simp] theorem State.setSession_lastEdgeTime (s : State) (v : SessionState) :
    (s.setSession v).lastEdgeTime = s.lastEdgeTime := rfl
@[simp] theorem State.setSession_rawFrame (s : State) (v : SessionState) :
    (s.setSession v).rawFrame = s.rawFrame := rfl
@[simp] theorem State.setSession_rawChecksum (s : State) (v : SessionState) :
    (s.setSession v).rawChecksum = s.rawChecksum := rfl
@[simp] theorem State.setSession_done (s : State) (v : SessionState) :
    (s.setSession v).done = s.done := rfl
@[simp] theorem State.setSession_response (s : State) (v : SessionState) :
    (s.setSession v).response = s.response := rfl
@[simp] theorem State.setSession_inputs (s : State) (v : SessionState) :
    (s.setSession v).inputs = s.inputs := rfl

@[simp] theorem State.setEdgeCount_session (s : State) (v : BitVec 32) :
    (s.setEdgeCount v).session = s.session := rfl
@[simp] theorem State.setEdgeCount_edgeCount (s : State) (v : BitVec 32) :
    (s.setEdgeCount v).edgeCount = v := rfl
@[simp] theorem State.setEdgeCount_lastEdgeTime (s : State) (v : BitVec 32) :
    (s.setEdgeCount v).lastEdgeTime = s.lastEdgeTime := rfl
@[simp] theorem State.setEdgeCount_rawFrame (s : State) (v : BitVec 32) :
    (s.setEdgeCount v).rawFrame = s.rawFrame := rfl
@[simp] theorem State.setEdgeCount_rawChecksum (s : State) (v : BitVec 32) :
    (s.setEdgeCount v).rawChecksum = s.rawChecksum := rfl
@[simp] theorem State.setEdgeCount_done (s : State) (v : BitVec 32) :
    (s.setEdgeCount v).done = s.done := rfl
@[simp] theorem State.setEdgeCount_response (s : State) (v : BitVec 32) :
    (s.setEdgeCount v).response = s.response := rfl
@[simp] theorem State.setEdgeCount_inputs (s : State) (v : BitVec 32) :
    (s.setEdgeCount v).inputs = s.inputs := rfl

@[simp] theorem State.setLastEdgeTime_session (s : State) (v : Timestamp) :
    (s.setLastEdgeTime v).session = s.session := rfl
@[simp] theorem State.setLastEdgeTime_edgeCount (s : State) (v : Timestamp) :
    (s.setLastEdgeTime v).edgeCount = s.edgeCount := rfl
@[simp] theorem State.setLastEdgeTime_lastEdgeTime (s : State) (v : Timestamp) :
    (s.setLastEdgeTime v).lastEdgeTime = v := rfl
@[simp] theorem State.setLastEdgeTime_rawFrame (s : State) (v : Timestamp) :
    (s.setLastEdgeTime v).rawFrame = s.rawFrame := rfl
@[simp] theorem State.setLastEdgeTime_rawChecksum (s : State) (v : Timestamp) :
    (s.setLastEdgeTime v).rawChecksum = s.rawChecksum := rfl
@[simp] theorem State.setLastEdgeTime_done (s : State) (v : Timestamp) :
    (s.setLastEdgeTime v).done = s.done := rfl
@[simp] theorem State.setLastEdgeTime_response (s : State) (v : Timestamp) :
    (s.setLastEdgeTime v).response = s.response := rfl
@[simp] theorem State.setLastEdgeTime_inputs (s : State) (v : Timestamp) :
    (s.setLastEdgeTime v).inputs = s.inputs := rfl

@[simp] theorem State.setRawFrame_session (s : State) (v : Frame) :
    (s.setRawFrame v).session = s.session := rfl
@[simp] theorem State.setRawFrame_edgeCount (s : State) (v : Frame) :
    (s.setRawFrame v).edgeCount = s.edgeCount := rfl
@[simp] theorem State.setRawFrame_lastEdgeTime (s : State) (v : Frame) :
    (s.setRawFrame v).lastEdgeTime = s.lastEdgeTime := rfl
@[simp] theorem State.setRawFrame_rawFrame (s : State) (v : Frame) :
    (s.setRawFrame v).rawFrame = v := rfl
@[simp] theorem State.setRawFrame_rawChecksum (s : State) (v : Frame) :
    (s.setRawFrame v).rawChecksum = s.rawChecksum := rfl
@[simp] theorem State.setRawFrame_done (s : State) (v : Frame) :
    (s.setRawFrame v).done = s.done := rfl
@[simp] theorem State.setRawFrame_response (s : State) (v : Frame) :
    (s.setRawFrame v).response = s.response := rfl
@[simp] theorem State.setRawFrame_inputs (s : State) (v : Frame) :
    (s.setRawFrame v).inputs = s.inputs := rfl

@[simp] theorem State.setRawChecksum_session (s : State) (v : Byte) :
    (s.setRawChecksum v).session = s.session := rfl
@[simp] theorem State.setRawChecksum_edgeCount (s : State) (v : Byte) :
    (s.setRawChecksum v).edgeCount = s.edgeCount := rfl
@[simp] theorem State.setRawChecksum_lastEdgeTime (s : State) (v : Byte) :
    (s.setRawChecksum v).lastEdgeTime = s.lastEdgeTime := rfl
@[simp] theorem State.setRawChecksum_rawFrame (s : State) (v : Byte) :
    (s.setRawChecksum v).rawFrame = s.rawFrame := rfl
@[simp] theorem State.setRawChecksum_rawChecksum (s : State) (v : Byte) :
    (s.setRawChecksum v).rawChecksum = v := rfl
@[simp] theorem State.setRawChecksum_done (s : State) (v : Byte) :
    (s.setRawChecksum v).done = s.done := rfl
@[simp] theorem State.setRawChecksum_response (s : State) (v : Byte) :
    (s.setRawChecksum v).response = s.response := rfl
@[simp] theorem State.setRawChecksum_inputs (s : State) (v : Byte) :
    (s.setRawChecksum v).inputs = s.inputs := rfl

@[simp] theorem State.setDone_session (s : State) (v : Bool) :
    (s.setDone v).session = s.session := rfl
@[simp] theorem State.setDone_edgeCount (s : State) (v : Bool) :
    (s.setDone v).edgeCount = s.edgeCount := rfl
@[simp] theorem State.setDone_lastEdgeTime (s : State) (v : Bool) :
    (s.setDone v).lastEdgeTime = s.lastEdgeTime := rfl
@[simp] theorem State.setDone_rawFrame (s : State) (v : Bool) :
    (s.setDone v).rawFrame = s.rawFrame := rfl
@[simp] theorem State.setDone_rawChecksum (s : State) (v : Bool) :
    (s.setDone v).rawChecksum = s.rawChecksum := rfl
@[simp] theorem State.setDone_done (s : State) (v : Bool) :
    (s.setDone v).done = v := rfl
@[simp] theorem State.setDone_response (s : State) (v : Bool) :
    (s.setDone v).response = s.response := rfl
@[simp] theorem State.setDone_inputs (s : State) (v : Bool) :
    (s.setDone v).inputs = s.inputs := rfl

@[simp] theorem State.setInputs_session (s : State) (v : List Event) :
    (s.setInputs v).session = s.session := rfl
@[simp] theorem State.setInputs_edgeCount (s : State) (v : List Event) :
    (s.setInputs v).edgeCount = s.edgeCount := rfl
@[simp] theorem State.setInputs_lastEdgeTime (s : State) (v : List Event) :
    (s.setInputs v).lastEdgeTime = s.lastEdgeTime := rfl
@[simp] theorem State.setInputs_rawFrame (s : State) (v : List Event) :
    (s.setInputs v).rawFrame = s.rawFrame := rfl
@[simp] theorem State.setInputs_rawChecksum (s : State) (v : List Event) :
    (s.setInputs v).rawChecksum = s.rawChecksum := rfl
@[simp] theorem State.setInputs_done (s : State) (v : List Event) :
    (s.setInputs v).done = s.done := rfl
@[simp] theorem State.setInputs_response (s : State) (v : List Event) :
    (s.setInputs v).response = s.response := rfl
@[simp] theorem State.setInputs_inputs (s : State) (v : List Event) :
    (s.setInputs v).inputs = v := rfl

@[simp] theorem State.signal_session (s : State) :
    s.signal.session = s.session := rfl
@[simp] theorem State.signal_edgeCount (s : State) :
    s.signal.edgeCount = s.edgeCount := rfl
@[simp] theorem State.signal_lastEdgeTime (s : State) :
    s.signal.lastEdgeTime = s.lastEdgeTime := rfl
@[simp] theorem State.signal_rawFrame (s : State) :
    s.signal.rawFrame = s.rawFrame := rfl
@[simp] theorem State.signal_rawChecksum (s : State) :
    s.signal.rawChecksum = s.rawChecksum := rfl
@[simp] theorem State.signal_done (s : State) :
    s.signal.done = true := rfl
@[simp] theorem State.signal_response (s : State) :
    s.signal.response = s.response := rfl
@[simp] theorem State.signal_inputs (s : State) :
    s.signal.inputs = s.inputs := rfl

@[simp] theorem State.respond_session (s : State) (c : ResponseCode) (d : BitVec 64) :
    (s.respond c d).session = s.session := rfl
@[simp] theorem State.respond_edgeCount (s : State) (c : ResponseCode) (d : BitVec 64) :
    (s.respond c d).edgeCount = s.edgeCount := rfl
@[simp] theorem State.respond_lastEdgeTime (s : State) (c : ResponseCode) (d : BitVec 64) :
    (s.respond c d).lastEdgeTime = s.lastEdgeTime := rfl
@[simp] theorem State.respond_rawFrame (s : State) (c : ResponseCode) (d : BitVec 64) :
    (s.respond c d).rawFrame = s.rawFrame := rfl
@[simp] theorem State.respond_rawChecksum (s : State) (c : ResponseCode) (d : BitVec 64) :
    (s.respond c d).rawChecksum = s.rawChecksum := rfl
@[simp] theorem State.respond_done (s : State) (c : ResponseCode) (d : BitVec 64) :
    (s.respond c d).done = s.done := rfl
@[simp] theorem State.respond_response (s : State) (c : ResponseCode) (d : BitVec 64) :
    (s.respond c d).response = some { code := c, data := d } := rfl
@[simp] theorem State.respond_inputs (s : State) (c : ResponseCode) (d : BitVec 64) :
    (s.respond c d).inputs = s.inputs := rfl

@[simp] theorem State.raise_session (s : State) (c : ResponseCode) (d : BitVec 64) :
    (s.raise c d).session = s.session := rfl
@[simp] theorem State.raise_edgeCount (s : State) (c : ResponseCode) (d : BitVec 64) :
    (s.raise c d).edgeCount = s.edgeCount := rfl
@[simp] theorem State.raise_lastEdgeTime (s : State) (c : ResponseCode) (d : BitVec 64) :
    (s.raise c d).lastEdgeTime = s.lastEdgeTime := rfl
@[simp] theorem State.raise_rawFrame (s : State) (c : ResponseCode) (d : BitVec 64) :
    (s.raise c d).rawFrame = s.rawFrame := rfl
@[simp] theorem State.raise_rawChecksum (s : State) (c : ResponseCode) (d : BitVec 64) :
    (s.raise c d).rawChecksum = s.rawChecksum := rfl
@[simp] theorem State.raise_done (s : State) (c : ResponseCode) (d : BitVec 64) :
    (s.raise c d).done = s.done := rfl
@[simp] theorem State.raise_response (s : State) (c : ResponseCode) (d : BitVec 64) :
    (s.raise c d).response = some { code := c, data := d } := rfl
@[simp] theorem State.raise_inputs (s : State) (c : ResponseCode) (d : BitVec 64) :
    (s.raise c d).inputs = s.inputs := rfl

@[simp] theorem State.raiseIllegalState_session (s : State) :
    s.raiseIllegalState.session = s.session := rfl
@[simp] theorem State.raiseIllegalState_edgeCount (s : State) :
    s.raiseIllegalState.edgeCount = s.edgeCount := rfl
@[simp] theorem State.raiseIllegalState_lastEdgeTime (s : State) :
    s.raiseIllegalState.lastEdgeTime = s.lastEdgeTime := rfl
@[simp] theorem State.raiseIllegalState_rawFrame (s : State) :
    s.raiseIllegalState.rawFrame = s.rawFrame := rfl
@[simp] theorem State.raiseIllegalState_rawChecksum (s : State) :
    s.raiseIllegalState.rawChecksum = s.rawChecksum := rfl
@[simp] theorem State.raiseIllegalState_done (s : State) :
    s.raiseIllegalState.done = s.done := rfl
@[simp] theorem State.raiseIllegalState_response (s : State) :
    s.raiseIllegalState.response = some { code := .illegalState, data := s.session.code.setWidth 64 } := rfl
@[simp] theorem State.raiseIllegalState_inputs (s : State) :
    s.raiseIllegalState.inputs = s.inputs := rfl

@[simp] theorem State.clearRegisters_session (s : State) :
    s.clearRegisters.session = .idle := rfl
@[simp] theorem State.clearRegisters_edgeCount (s : State) :
    s.clearRegisters.edgeCount = 0 := rfl
@[simp] theorem State.clearRegisters_lastEdgeTime (s : State) :
    s.clearRegisters.lastEdgeTime = 0 := rfl
@[simp] theorem State.clearRegisters_rawFrame (s : State) :
    s.clearRegisters.rawFrame = 0 := rfl
@[simp] theorem State.clearRegisters_rawChecksum (s : State) :
    s.clearRegisters.rawChecksum = 0 := rfl
@[simp] theorem State.clearRegisters_done (s : State) :
    s.clearRegisters.done = false := rfl
@[simp] theorem State.clearRegisters_response (s : State) :
    s.clearRegisters.response = s.response := rfl
@[simp] theorem State.clearRegisters_inputs (s : State) :
    s.clearRegisters.inputs = s.inputs := rfl

@[simp] theorem hardwareReset_session (s : State) : (hardwareReset s).session = .idle := rfl
@[simp] theorem hardwareReset_edgeCount (s : State) : (hardwareReset s).edgeCount = 0 := rfl
@[simp] theorem hardwareReset_lastEdgeTime (s : State) : (hardwareReset s).lastEdgeTime = 0 := rfl
@[simp] theorem hardwareReset_rawFrame (s : State) : (hardwareReset s).rawFrame = 0 := rfl
@[simp] theorem hardwareReset_rawChecksum (s : State) : (hardwareReset s).rawChecksum = 0 := rfl
@[simp] theorem hardwareReset_done (s : State) : (hardwareReset s).done = false := rfl
@[simp] theorem hardwareReset_response (s : State) : (hardwareReset s).response = none := rfl
@[simp] theorem hardwareReset_inputs (s : State) : (hardwareReset s).inputs = s.inputs := rfl

/-- Two states with the same eight fields are equal. -/
theorem State.eq_of_fields {s t : State} (h0 : s.session = t.session) (h1 : s.edgeCount = t.edgeCount)
    (h2 : s.lastEdgeTime = t.lastEdgeTime) (h3 : s.rawFrame = t.rawFrame) (h4 : s.rawChecksum = t.rawChecksum)
    (h5 : s.done = t.done) (h6 : s.response = t.response) (h7 : s.inputs = t.inputs) : s = t := by
  cases s
  cases t
  simp_all

end Sys2Proof.Machine
end

