-- ==== Sys2Proof/Laws/EdgeCapture.lean ====
section
/-! SUPPORT. Everything the shared operations of EDGE can do: the shift as a number, and an accepted edge by its
ordinal. -/

namespace Sys2Proof.Machine

theorem shiftIn_toNat {width : Nat} (acc : BitVec width) (bit : BitVec 1) (hw : 1 ≤ width) :
    (shiftIn acc bit).toNat = (2 * acc.toNat + bit.toNat) % 2 ^ width := by
  have hb := bit.isLt
  obtain ⟨v, rfl⟩ : ∃ v, width = v + 1 := ⟨width - 1, by omega⟩
  have h1 : (bit.setWidth (v + 1)).toNat = bit.toNat := by
    rw [BitVec.toNat_setWidth]
    apply Nat.mod_eq_of_lt
    have : 2 ^ 1 ≤ 2 ^ (v + 1) := Nat.pow_le_pow_right (by omega) (by omega)
    omega
  have h2 : (acc <<< 1).toNat = 2 ^ 1 * (acc.toNat % 2 ^ v) := by
    rw [BitVec.toNat_shiftLeft, Nat.shiftLeft_eq, Nat.mul_comm, Nat.pow_succ' (n := v), pow_one,
      Nat.mul_mod_mul_left]
  rw [shiftIn, BitVec.toNat_or, h1, h2, ← Nat.two_pow_add_eq_or_of_lt (by omega), Nat.pow_succ' (n := v),
    Nat.mod_mul, show (2 * acc.toNat + bit.toNat) / 2 = acc.toNat by omega]
  omega

theorem shiftIn_getLsbD_zero {width : Nat} (acc : BitVec width) (bit : BitVec 1) (hw : 0 < width) :
    (shiftIn acc bit).getLsbD 0 = bit.getLsbD 0 := by
  simp [shiftIn, hw]

theorem shiftIn_getLsbD_succ {width : Nat} (acc : BitVec width) (bit : BitVec 1) (i : Nat) (hi : i + 1 < width) :
    (shiftIn acc bit).getLsbD (i + 1) = acc.getLsbD i := by
  have hbit : bit.getLsbD (i + 1) = false := BitVec.getLsbD_of_ge _ _ (by omega)
  have hi' : i < width := by omega
  simp [shiftIn, hi, hi']

theorem bitOf_classify_toNat (delta : Timestamp) :
    (bitOf (classify delta)).toNat = if delta.toNat > Config.thresholdUs.toNat then 1 else 0 := by
  by_cases h : delta.toNat > Config.thresholdUs.toNat
  · have h' : delta > Config.thresholdUs := h
    simp [classify, h', h, bitOf]
  · have h' : ¬ delta > Config.thresholdUs := h
    simp [classify, h', h, bitOf]

theorem acceptEdge_first {s : State} (ts : Timestamp) (h : ordinal s = 1) :
    acceptEdge s ts = { s with session := .capturing, edgeCount := 1 } := by
  simp [acceptEdge, recordEdge, closeEdge, h, Config.nEdges, Config.nPreamble, Config.nDataBits, Config.nCksumBits,
    State.setSession, State.setEdgeCount]

theorem acceptEdge_second {s : State} (ts : Timestamp) (h : ordinal s = 2) :
    acceptEdge s ts = { s with session := .capturing, edgeCount := 2, lastEdgeTime := ts } := by
  simp [acceptEdge, recordEdge, closeEdge, h, Config.nEdges, Config.nPreamble, Config.nDataBits, Config.nCksumBits,
    State.setSession, State.setEdgeCount, State.setLastEdgeTime]

theorem acceptEdge_data {s : State} (ts : Timestamp) (h3 : 3 ≤ ordinal s) (h42 : ordinal s ≤ 42) :
    acceptEdge s ts =
      { s with session := .capturing, edgeCount := BitVec.ofNat 32 (ordinal s), lastEdgeTime := ts,
               rawFrame := shiftIn s.rawFrame (bitOf (classify (deltaOf s ts))) } := by
  have h1 : ordinal s ≠ 1 := by omega
  have h2 : ordinal s ≠ 2 := by omega
  have h50 : ordinal s ≠ 50 := by omega
  simp [acceptEdge, recordEdge, storeBit, closeEdge, h1, h2, h42, h50, Config.nEdges, Config.nPreamble,
    Config.nDataBits, Config.nCksumBits, State.setSession, State.setEdgeCount, State.setLastEdgeTime, State.setRawFrame]

theorem acceptEdge_checksum {s : State} (ts : Timestamp) (h43 : 43 ≤ ordinal s) (h50 : ordinal s ≠ 50) :
    acceptEdge s ts =
      { s with session := .capturing, edgeCount := BitVec.ofNat 32 (ordinal s), lastEdgeTime := ts,
               rawChecksum := shiftIn s.rawChecksum (bitOf (classify (deltaOf s ts))) } := by
  have h1 : ordinal s ≠ 1 := by omega
  have h2 : ordinal s ≠ 2 := by omega
  have h42 : ¬ ordinal s ≤ 42 := by omega
  simp [acceptEdge, recordEdge, storeBit, closeEdge, h1, h2, h42, h50, Config.nEdges, Config.nPreamble,
    Config.nDataBits, Config.nCksumBits, State.setSession, State.setEdgeCount, State.setLastEdgeTime,
    State.setRawChecksum]

theorem acceptEdge_last {s : State} (ts : Timestamp) (h : ordinal s = 50) :
    acceptEdge s ts =
      { s with session := .complete, edgeCount := 50, lastEdgeTime := ts, done := true,
               rawChecksum := shiftIn s.rawChecksum (bitOf (classify (deltaOf s ts))) } := by
  simp [acceptEdge, recordEdge, storeBit, closeEdge, h, Config.nEdges, Config.nPreamble, Config.nDataBits,
    Config.nCksumBits, State.setSession, State.setEdgeCount, State.setLastEdgeTime, State.setRawChecksum, State.signal,
    State.setDone]

@[simp] theorem acceptEdge_inputs (s : State) (ts : Timestamp) : (acceptEdge s ts).inputs = s.inputs := by
  simp only [acceptEdge, closeEdge, recordEdge, storeBit]
  split_ifs <;> rfl

/-- The gate lets an EDGE through in `Handshaking` and in `Capturing` only. -/
theorem edgeAccepted_iff (x : SessionState) : edgeAccepted x = true ↔ x = .handshaking ∨ x = .capturing := by
  cases x <;> simp [edgeAccepted]

/-- An EDGE that answers `t` was ignored or accepted (R120, R127). -/
theorem execEdge_cases {ts : Timestamp} {s t : State} (h : execEdge ts s = .next t) :
    (s.session ≠ .handshaking ∧ s.session ≠ .capturing ∧ t = s.respond .ok 0) ∨
    ((s.session = .handshaking ∨ s.session = .capturing) ∧ t = (acceptEdge s ts).respond .ok 0) := by
  have hgate := edgeAccepted_iff s.session
  simp only [execEdge] at h
  cases ha : edgeAccepted s.session
  · rw [ha] at h hgate
    cases h
    simp only [Bool.false_eq_true, false_iff, not_or] at hgate
    exact .inl ⟨hgate.1, hgate.2, rfl⟩
  · rw [ha] at h
    cases h
    exact .inr ⟨hgate.1 ha, rfl⟩

end Sys2Proof.Machine
end

