-- ==== Sys2Proof/Laws/Encoding.lean ====
section
/-! SUPPORT. The fields of an operation word as numbers, and what the decoder answers for each opcode. -/

namespace Sys2Proof

theorem opcodeOf_toNat (w : OpWord) : (opcodeOf w).toNat = w.toNat / 2 ^ 64 := by
  have h := w.isLt
  simp only [opcodeOf, BitVec.extractLsb'_toNat, Nat.shiftRight_eq_div_pow]
  omega

theorem operandOf_toNat (w : OpWord) : (operandOf w).toNat = w.toNat % 2 ^ 64 := by
  simp [operandOf]

theorem indexOf_toNat (w : OpWord) : (indexOf w).toNat = w.toNat % 16 := by
  simp [indexOf]

theorem encode_toNat (i : Instr) : (encode i).toNat = i.opcode.toNat * 2 ^ 64 + i.operand.toNat := by
  have h := i.operand.isLt
  rw [encode, BitVec.toNat_append, Nat.shiftLeft_eq, Nat.mul_comm, Nat.two_pow_add_eq_or_of_lt h]

theorem opcodeOf_encode (i : Instr) : opcodeOf (encode i) = i.opcode := by
  apply BitVec.eq_of_toNat_eq
  have h := i.operand.isLt
  rw [opcodeOf_toNat, encode_toNat]
  omega

theorem operandOf_encode (i : Instr) : operandOf (encode i) = i.operand := by
  apply BitVec.eq_of_toNat_eq
  have h := i.operand.isLt
  rw [operandOf_toNat, encode_toNat]
  omega

theorem indexOf_encode_rd (idx : RegIndex) : indexOf (encode (.rd idx)) = idx := by
  apply BitVec.eq_of_toNat_eq
  have h := idx.isLt
  rw [indexOf_toNat, encode_toNat]
  simp only [Instr.opcode, Instr.operand, BitVec.toNat_setWidth]
  omega

theorem decode_of_opcode_1 {w : OpWord} (h : opcodeOf w = 0x1#4) : decode w = .op .start := by
  simp [decode, h]

theorem decode_of_opcode_2 {w : OpWord} (h : opcodeOf w = 0x2#4) : decode w = .op .arm := by
  simp [decode, h]

theorem decode_of_opcode_3 {w : OpWord} (h : opcodeOf w = 0x3#4) : decode w = .op (.edge (operandOf w)) := by
  simp [decode, h]

theorem decode_of_opcode_4 {w : OpWord} (h : opcodeOf w = 0x4#4) : decode w = .op .tmo := by
  simp [decode, h]

theorem decode_of_opcode_5 {w : OpWord} (h : opcodeOf w = 0x5#4) : decode w = .op .fin := by
  simp [decode, h]

theorem decode_of_opcode_6 {w : OpWord} (h : opcodeOf w = 0x6#4) : decode w = .op (.rd (indexOf w)) := by
  simp [decode, h]

theorem decode_of_reserved {w : OpWord} (h : opcodeOf w = 0x0#4 ∨ 7 ≤ (opcodeOf w).toNat) :
    decode w = .reservedOpcode (opcodeOf w) := by
  simp only [decode]
  generalize opcodeOf w = o at *
  split <;> simp_all

end Sys2Proof
end

