-- ==== Sys2Proof/Laws/Operands.lean ====
section
/-! SUPPORT. What a register read answers, by index. -/

namespace Sys2Proof.Machine

theorem readRegister_eq_none_iff (s : State) (idx : RegIndex) : readRegister s idx = none ↔ 6 ≤ idx.toNat := by
  revert idx
  have key : ∀ n : Fin 16, readRegister s (BitVec.ofFin n) = none ↔ 6 ≤ n.val := by
    intro n
    fin_cases n <;> simp [readRegister]
  intro idx
  exact key idx.toFin

end Sys2Proof.Machine
end

