-- ==== Sys2Proof/Laws/PerInstr.lean ====
section
/-! SUPPORT. The per-instruction family EncodedFields: the opcode and operand fields of an operation's word are the numbers
of spec/30_encoding.md R71 and R72. -/

namespace Sys2Proof.Laws.EncodedFields

/-- The two fields of the operation's word (R70). -/
def Statement (i : Instr) : Prop :=
  opcodeOf (encode i) = i.opcode ∧ operandOf (encode i) = i.operand

theorem start : Statement .start := ⟨opcodeOf_encode _, operandOf_encode _⟩

theorem arm : Statement .arm := ⟨opcodeOf_encode _, operandOf_encode _⟩

theorem edge (ts : Timestamp) : Statement (.edge ts) := ⟨opcodeOf_encode _, operandOf_encode _⟩

theorem tmo : Statement .tmo := ⟨opcodeOf_encode _, operandOf_encode _⟩

theorem fin : Statement .fin := ⟨opcodeOf_encode _, operandOf_encode _⟩

theorem rd (idx : RegIndex) : Statement (.rd idx) := ⟨opcodeOf_encode _, operandOf_encode _⟩

end Sys2Proof.Laws.EncodedFields
end

