-- ==== Sys2Proof/Laws/Reading.lean ====
section
/-! SUPPORT. The byte fields of RAW_FRAME as numbers, for the validator and the decoder. -/

namespace Sys2Proof.Machine

theorem hHi_toNat (F : Frame) : (hHi F).toNat = F.toNat / 2 ^ 32 % 256 := by
  simp [hHi, Config.dataLsb, Nat.shiftRight_eq_div_pow]

theorem hLo_toNat (F : Frame) : (hLo F).toNat = F.toNat / 2 ^ 24 % 256 := by
  simp [hLo, Config.dataLsb, Nat.shiftRight_eq_div_pow]

theorem tHi_toNat (F : Frame) : (tHi F).toNat = F.toNat / 2 ^ 16 % 256 := by
  simp [tHi, Config.dataLsb, Nat.shiftRight_eq_div_pow]

theorem tLo_toNat (F : Frame) : (tLo F).toNat = F.toNat / 2 ^ 8 % 256 := by
  simp [tLo, Config.dataLsb, Nat.shiftRight_eq_div_pow]

theorem cksumCompute_toNat (b1 b2 b3 b4 : Byte) :
    (cksumCompute b1 b2 b3 b4).toNat = (b1.toNat + b2.toNat + b3.toNat + b4.toNat) % 256 := by
  simp [cksumCompute]

/-- Joining two bytes by shift and or is their sum by weight. -/
theorem joinBytes (h l : Byte) : h.toNat <<< 8 ||| l.toNat = 256 * h.toNat + l.toNat := by
  have hl := l.isLt
  rw [Nat.shiftLeft_eq, Nat.mul_comm, ← Nat.two_pow_add_eq_or_of_lt hl]

end Sys2Proof.Machine
end

