-- ==== Sys2Proof/Laws/Safety.lean ====
section
/-! SUPPORT. The small lemmas of the predicates in Safety.lean. -/

namespace Sys2Proof.Machine

theorem SameRegisters.refl (s : State) : SameRegisters s s := ⟨rfl, rfl, rfl, rfl, rfl, rfl⟩

theorem SameRegisters.trans {s t u : State} (h : SameRegisters s t) (h' : SameRegisters t u) : SameRegisters s u := by
  obtain ⟨a, b, c, d, e, f⟩ := h
  obtain ⟨a', b', c', d', e', f'⟩ := h'
  exact ⟨a'.trans a, b'.trans b, c'.trans c, d'.trans d, e'.trans e, f'.trans f⟩

/-- The invariant reads the six registers only. -/
theorem RegisterInv.of_sameRegisters {s t : State} (h : SameRegisters s t) (hs : RegisterInv s) : RegisterInv t := by
  obtain ⟨a, b, c, d, e, f⟩ := h
  unfold RegisterInv NothingReceived PartialCapture at *
  rw [a, b, c, d, e, f]
  exact hs

theorem Event.isEdge_iff (e : Event) :
    e.isEdge = true ↔ ∃ issuer w ts, e = .word issuer w ∧ decode w = .op (.edge ts) := by
  cases e with
  | reset => simp [Event.isEdge, Event.instr?]
  | word issuer w =>
    simp only [Event.isEdge, Event.instr?]
    cases hd : decode w with
    | op i => cases i <;> simp_all
    | reservedOpcode o => simp_all

theorem Event.instr?_eq_some_iff (e : Event) (i : Instr) :
    e.instr? = some i ↔ ∃ issuer w, e = .word issuer w ∧ decode w = .op i := by
  cases e with
  | reset => simp [Event.instr?]
  | word issuer w =>
    simp only [Event.instr?]
    cases hd : decode w <;> simp_all

end Sys2Proof.Machine
end

