-- ==== Sys2Proof/Laws/Step.lean ====
section
/-! SUPPORT. What one step can do, said once, and how a run is made of steps. -/

namespace Sys2Proof.Machine

/-- The four things a step that answers `t` can have been: a wait, a reset, a reserved opcode, or an operation. -/
theorem step_cases {s t : State} (h : step s = .next t) :
    (s.inputs = [] ∧ t = s) ∨
    (∃ rest, s.inputs = .reset :: rest ∧ t = hardwareReset (s.setInputs rest)) ∨
    (∃ issuer w rest opcode, s.inputs = .word issuer w :: rest ∧ decode w = .reservedOpcode opcode ∧
      t = (s.setInputs rest).raise .illegalOp 0) ∨
    (∃ issuer w rest i, s.inputs = .word issuer w :: rest ∧ decode w = .op i ∧
      exec i (s.setInputs rest) = .next t) := by
  unfold step at h
  split at h
  case h_1 hin =>
    cases h
    exact .inl ⟨hin, rfl⟩
  case h_2 rest hin =>
    cases h
    exact .inr (.inl ⟨rest, hin, rfl⟩)
  case h_3 issuer w rest hin =>
    split at h
    case h_1 i hd => exact .inr (.inr (.inr ⟨issuer, w, rest, i, hin, hd, h⟩))
    case h_2 opcode hd =>
      cases h
      exact .inr (.inr (.inl ⟨issuer, w, rest, opcode, hin, hd, rfl⟩))

theorem run_succ {s t : State} (k : Nat) (h : step s = .next t) : core.run (k + 1) s = core.run k t := by
  have h' : core.step s = .next t := h
  simp only [Host.Core.run, h']

theorem run_add (j k : Nat) (s t : State) (h : core.run j s = .next t) : core.run (j + k) s = core.run k t := by
  induction j generalizing s with
  | zero =>
    cases h
    rw [Nat.zero_add]
  | succ j ih =>
    match hu : step s with
    | .next u =>
      rw [run_succ j hu] at h
      rw [show j + 1 + k = (j + k) + 1 by omega, run_succ (j + k) hu, ih u h]
    | .refused r =>
      have hu' : core.step s = .refused r := hu
      simp [Host.Core.run, hu'] at h

end Sys2Proof.Machine
end

