-- ==== Sys2Proof/Tests/Slice0.lean ====
section
/-! SUPPORT. Tests: ill-formed terms, decoding of hand-written words, one step per line of spec/95_test_vectors.md part 2,
and a witness for the hypotheses of every statement in Certificates/Slice0/Obligations.lean. Every expected value is the
spec's own or computed by hand from its rules. -/

open Sys2Proof Sys2Proof.Machine

namespace Sys2Proof.Tests

/-- A state written as the tuple of spec/95_test_vectors.md, nothing answered and nothing presented yet. -/
def tuple (session : SessionState) (count : BitVec 32) (last : Timestamp) (frame : Frame) (ck : Byte) (done : Bool) :
    State :=
  { session := session, edgeCount := count, lastEdgeTime := last, rawFrame := frame, rawChecksum := ck, done := done,
    response := none, inputs := [] }

/-- The same with nothing received. -/
def blank (session : SessionState) : State := tuple session 0 0 0 0 false

/-- The source's frame E2, complete. -/
def full : State := tuple .complete 50 5124 0x028C011100 0xA0 true

/-- The same with a wrong transmitted checksum. -/
def wrong : State := tuple .complete 50 5124 0x028C011100 0xA1 true

/-- After FIN has refused it. -/
def invalid : State := tuple .checksumInvalid 50 5124 0x028C011100 0xA1 true

/-- The response word and the state after an outcome, without the port, where it is a next state. -/
def observe (o : Host.Outcome State Fault Refusal) : Option (Option (BitVec 68) × State) :=
  match o with
  | .next t => some (t.response.map Response.word, { t with response := none })
  | .fault _ => none
  | .refused _ => none

/-- The word presented by the agent whose operation it is. -/
def presented (w : OpWord) : Event := .word (presenter w) w

/-- The state with these words presented next. -/
def feed (s : State) (words : List OpWord) : State := { s with inputs := words.map presented }

/-! ## Well-formedness (R78) -/

theorem test_wellFormed_reserved_index_6 : (Instr.rd 6).wellFormed = false := by decide

theorem test_wellFormed_reserved_index_15 : (Instr.rd 15).wellFormed = false := by decide

theorem test_wellFormed_index_5 : (Instr.rd 5).wellFormed = true := by decide

theorem test_wellFormed_edge_max : (Instr.edge 0xFFFFFFFFFFFFFFFF).wellFormed = true := by decide

/-! ## Decoding and encoding: words of spec/95_test_vectors.md 2.1, and 0xO_DDDDDDDDDDDDDDDD of R81 -/

theorem test_decode_start : decode 0x1FFFFFFFFFFFFFFFF#68 = .op .start := by decide

theorem test_decode_arm : decode 0x200000000DEADBEEF#68 = .op .arm := by decide

theorem test_decode_edge : decode 0x300000000000003E8#68 = .op (.edge 1000) := by decide

theorem test_decode_edge_max : decode 0x3FFFFFFFFFFFFFFFF#68 = .op (.edge 0xFFFFFFFFFFFFFFFF) := by decide

theorem test_decode_tmo : decode 0x40000000000000000#68 = .op .tmo := by decide

theorem test_decode_fin : decode 0x50000000000000000#68 = .op .fin := by decide

theorem test_decode_rd : decode 0x60000000000000003#68 = .op (.rd 3) := by decide

theorem test_decode_rd_high_bits_ignored : decode 0x6FFFFFFFFFFFFFFF3#68 = .op (.rd 3) := by decide

theorem test_decode_reserved_0 : decode 0x00000000000000000#68 = .reservedOpcode 0 := by decide

theorem test_decode_reserved_7 : decode 0x70000000000000000#68 = .reservedOpcode 7 := by decide

theorem test_decode_reserved_8 : decode 0x80000000000000001#68 = .reservedOpcode 8 := by decide

theorem test_decode_reserved_F : decode 0xFFFFFFFFFFFFFFFFF#68 = .reservedOpcode 15 := by decide

theorem test_encode_words :
    encode .start = 0x10000000000000000#68 ∧ encode .arm = 0x20000000000000000#68 ∧
    encode (.edge 5124) = 0x30000000000001404#68 ∧ encode .tmo = 0x40000000000000000#68 ∧
    encode .fin = 0x50000000000000000#68 ∧ encode (.rd 5) = 0x60000000000000005#68 := by decide

theorem test_response_words :
    (Response.mk .ok 0x28C011100).word = 0x00000000028C011100#68 ∧ (Response.mk .busy 0).word = 0x10000000000000000#68 ∧
    (Response.mk .timeout 0).word = 0x20000000000000000#68 ∧
    (Response.mk .checksumMismatch 0x111028C).word = 0x3000000000111028C#68 ∧
    (Response.mk .illegalState 5).word = 0x40000000000000005#68 ∧
    (Response.mk .illegalOp 0).word = 0x50000000000000000#68 := by decide

theorem test_tableWord_start : decodeTableWord 72 (2 ^ 64) = some .start := by decide

theorem test_tableWord_too_wide : decodeTableWord 72 (2 ^ 68) = none := by decide

theorem test_tableWord_runs_first_after_reset :
    observe (step (State.reset.withFetchWord 72 (2 * 2 ^ 64))) =
      some (some 0x00000000000000000#68, blank .handshaking) := by decide

/-! ## Session control: spec/95_test_vectors.md 2.2 -/

theorem test_start_clears_timedOut :
    observe (exec .start (tuple .timedOut 10 2864 0xA5 0 false)) = some (some 0x00000000000000000#68, blank .idle) := by
  decide

theorem test_start_busy :
    observe (exec .start (tuple .capturing 7 1460 0 0 false)) =
      some (some 0x10000000000000000#68, tuple .capturing 7 1460 0 0 false) := by decide

theorem test_arm_from_idle :
    observe (exec .arm (blank .idle)) = some (some 0x00000000000000000#68, blank .handshaking) := by decide

theorem test_arm_refused_after_mismatch :
    observe (exec .arm invalid) = some (some 0x40000000000000005#68, invalid) := by decide

theorem test_tmo_keeps_partial_fields :
    observe (exec .tmo (tuple .capturing 49 5048 0x028C011100 0x50 false)) =
      some (some 0x20000000000000000#68, tuple .timedOut 49 5048 0x028C011100 0x50 false) := by decide

theorem test_tmo_refused_when_complete :
    observe (exec .tmo full) = some (some 0x40000000000000003#68, full) := by decide

theorem test_fin_ok : observe (exec .fin full) = some (some 0x0000000010111028C#68, full) := by decide

theorem test_fin_mismatch : observe (exec .fin wrong) = some (some 0x3000000000111028C#68, invalid) := by decide

/-! ## Edge capture: spec/95_test_vectors.md 2.3 -/

theorem test_classify_values :
    classify 99 = .zero ∧ classify 100 = .zero ∧ classify 101 = .one ∧ classify 0xFFFFFFFFFFFFFF9C = .one := by decide

theorem test_delta_wraps :
    deltaOf (tuple .capturing 3 0xFFFFFFFFFFFFFFFF 0 0 false) 99 = 100 ∧
    deltaOf (tuple .capturing 3 1000 0 0 false) 900 = 0xFFFFFFFFFFFFFF9C := by decide

theorem test_edge_first_not_timed :
    observe (exec (.edge 1000) (blank .handshaking)) =
      some (some 0x00000000000000000#68, tuple .capturing 1 0 0 0 false) := by decide

theorem test_edge_completes :
    observe (exec (.edge 5168) (tuple .capturing 49 5048 0x028C011100 0x50 false)) =
      some (some 0x00000000000000000#68, tuple .complete 50 5168 0x028C011100 0xA1 true) := by decide

theorem test_recordEdge_second :
    acceptEdge (tuple .capturing 1 0 0 0 false) 1080 = tuple .capturing 2 1080 0 0 false := by decide

theorem test_recordEdge_shifts_bit_39_out :
    acceptEdge (tuple .capturing 41 4352 0xFFFFFFFFFF 0 false) 4428 =
      tuple .capturing 42 4428 0xFFFFFFFFFE 0 false := by decide

theorem test_recordEdge_first_checksum_bit :
    acceptEdge (tuple .capturing 42 4428 0x028C011100 0 false) 4548 =
      tuple .capturing 43 4548 0x028C011100 0x01 false := by decide

theorem test_edgeAccepted_states :
    edgeAccepted .idle = false ∧ edgeAccepted .complete = false ∧ edgeAccepted .timedOut = false ∧
      edgeAccepted .checksumInvalid = false := by decide

/-! ## Checksum and reading: spec/95_test_vectors.md 2.4 and 2.5 -/

theorem test_checksum_sums :
    cksumCompute 0xFF 0xFF 0xFF 0xFF = 0xFC ∧ cksumCompute 0x80 0x80 0 0 = 0 ∧ cksumCompute 0x02 0x8C 0x01 0x11 = 0xA0 ∧
    cksumCompute 0x01 0xF4 0x80 0x96 = 0x0B ∧ cksumCompute 0x12 0x34 0x56 0x78 = 0x14 ∧
    cksumCompute 0x03 0xE8 0x7F 0xFF = 0x69 := by decide

theorem test_checksum_ignores_pad :
    cksumValidate 0x028C0111FF 0xA0 = true ∧ cksumValidate 0x038B011100 0xA0 = true ∧
    cksumValidate 0x028C811100 0xA0 = false := by decide

theorem test_reading_data :
    pack (decodeReading 0x0000809600 true) = 0x00000001FF6A0000 ∧ pack (decodeReading 0x0000800000 true) = 0x100000000 ∧
    pack (decodeReading 0xFFFF7FFF00 true) = 0x17FFFFFFF ∧ pack (decodeReading 0xFFFFFFFF00 true) = 0x18001FFFF ∧
    pack (decodeReading 0x0001810000 true) = 0x1FF000001 ∧ pack (decodeReading 0x01F48096FF false) = 0xFF6A01F4 := by
  decide

theorem test_reading_values :
    decodeReading 0x028C011100 true = ⟨652, 273, true⟩ ∧ decodeReading 0x0000800F00 true = ⟨0, -15, true⟩ ∧
    decodeReading 0x03E8800100 false = ⟨1000, -1, false⟩ := by decide

/-! ## Read-back and reset: spec/95_test_vectors.md 2.6 and 2.7 -/

theorem test_rd_last_edge_time_all_bits :
    observe (exec (.rd 2) (tuple .capturing 2 0xFFFFFFFFFFFFF0A0 0 0 false)) =
      some (some 0x0FFFFFFFFFFFFF0A0#68, tuple .capturing 2 0xFFFFFFFFFFFFF0A0 0 0 false) := by decide

theorem test_rd_reserved_index : observe (exec (.rd 6) full) = some (some 0x50000000000000000#68, full) := by decide

theorem test_readRegister_names :
    (RegName.state.index, RegName.edgeCount.index, RegName.lastEdgeTime.index, RegName.rawFrame.index,
      RegName.rawChecksum.index, RegName.done.index) = (0, 1, 2, 3, 4, 5) ∧
    readRegister full 0 = some 3 ∧ readRegister full 1 = some 0x32 ∧ readRegister full 2 = some 0x1404 ∧
    readRegister full 3 = some 0x28C011100 ∧ readRegister full 4 = some 0xA0 ∧ readRegister full 5 = some 1 := by decide

theorem test_reset_input :
    observe (step { tuple .capturing 30 3472 0x000028C011 0 false with inputs := [.reset] }) =
      some (none, blank .idle) := by decide

theorem test_reserved_opcode_step :
    observe (step (feed full [0x80000000000000001#68])) = some (some 0x50000000000000000#68, full) := by decide

theorem test_nothing_presented : observe (step full) = some (none, full) := by decide

/-! ## Listings: R81, R82 and the lines of spec/95_test_vectors.md part 3 -/

theorem test_listing_lines :
    readListing ["START   ; begin".toList, "; a comment".toList, "EDGE 0x3E8".toList, "EDGE +80".toList,
        "RD RAW_FRAME".toList, "RD 15".toList, "FIN -> OK 0x000000010111028C".toList] =
      some [.op .start, .op (.edge 1000), .edgePlus 80, .op (.rd 3), .op (.rd 15), .op .fin] := by decide

theorem test_listing_refuses :
    readListing ["RD 16".toList] = none ∧ readListing ["START 1".toList] = none ∧
    readListing ["EDGE 18446744073709551616".toList] = none ∧ readListing ["NOP".toList] = none ∧
    readListing ["RD STATE, RD DONE".toList] = none := by decide

theorem test_listing_underscores :
    readNumber "0xFFFF_F000".toList = some 0xFFFFF000 ∧ readNumber "1_000".toList = some 1000 ∧
    readNumber "_".toList = none ∧ readNumber "0x_".toList = none ∧ readNumber "_5".toList = none ∧
    readNumber "5_".toList = none ∧ readNumber "0x".toList = none ∧ readByte "__".toList = none ∧
    readByte "_A".toList = none ∧ readByte "8C".toList = some 0x8C := by decide

/-- A duration is reduced modulo 2^64 (R82); a timestamp above 2^64 - 1 is refused (R81). -/
theorem test_listing_durations :
    readDuration "18446744073709551617".toList = some 1 ∧ readBitDuration "18446744073709551617".toList = none := by
  decide

/-- The first lines of program P1, its host action among them. -/
theorem test_listing_host_action :
    readListing ["START                                   ; 0x1_0000000000000000".toList,
        "(host: start pulse, line to input, arm edge detection)".toList,
        "ARM                                     ; 0x2_0000000000000000".toList] = some [.op .start, .op .arm] := by
  decide

theorem test_listing_frame :
    readListing ["FRAME 1000, 80, 76, 120, 02 8C 01 11 00, A0".toList] =
      some [.frame 1000 80 76 120 0x02 0x8C 0x01 0x11 0x00 0xA0] := by decide

theorem test_assemble_edgePlus :
    assemble none [.op (.edge 0xFFFFFFFFFFFFFFF6), .op .tmo, .edgePlus 100] =
      some [0x3FFFFFFFFFFFFFFF6#68, 0x40000000000000000#68, 0x3000000000000005A#68] := by decide

/-- Edges 1, 2, 3, 9 and 50 of program P1. -/
theorem test_frameTimes_p1 :
    let times := frameTimes 1000 80 76 120 0x02 0x8C 0x01 0x11 0x00 0xA0
    (times.length, times[0]?, times[1]?, times[2]?, times[8]?, times[49]?) =
      (50, some 1000, some 1080, some 1156, some 1656, some 5124) := by decide

theorem test_assemble_refuses_threshold :
    assemble none [.frame 0 0 101 120 0 0 0 0 0 0] = none ∧ assemble none [.frame 0 0 76 100 0 0 0 0 0 0] = none ∧
    assemble none [.edgePlus 1] = none := by decide

/-! ## Witnesses: states and operands that meet the hypotheses of each statement, clause by clause -/

theorem test_witness_decoder_fields :
    (0x1FFFFFFFFFFFFFFFF#68).toNat / 2 ^ 64 = 1 ∧ (0x20000000000000000#68).toNat / 2 ^ 64 = 2 ∧
    ((0x3FFFFFFFFFFFFFFFF#68).toNat / 2 ^ 64 = 3 ∧
      (0xFFFFFFFFFFFFFFFF#64).toNat = (0x3FFFFFFFFFFFFFFFF#68).toNat % 2 ^ 64) ∧
    (0x40000000000000000#68).toNat / 2 ^ 64 = 4 ∧ (0x50000000000000000#68).toNat / 2 ^ 64 = 5 ∧
    ((0x6FFFFFFFFFFFFFFFF#68).toNat / 2 ^ 64 = 6 ∧ (15#4).toNat = (0x6FFFFFFFFFFFFFFFF#68).toNat % 16) ∧
    ((0x00000000000000000#68).toNat / 2 ^ 64 = (0#4).toNat ∧ (0#4).toNat = 0) ∧
    ((0x70000000000000000#68).toNat / 2 ^ 64 = (7#4).toNat ∧ 7 ≤ (7#4).toNat) ∧
    ((0xFFFFFFFFFFFFFFFFF#68).toNat / 2 ^ 64 = (15#4).toNat ∧ 7 ≤ (15#4).toNat) := by decide

theorem test_witness_reserved_opcodes :
    (feed full [0x00000000000000000#68]).inputs = .word .consumer 0x00000000000000000#68 :: [] ∧
    (0x00000000000000000#68).toNat / 2 ^ 64 = 0 ∧ 7 ≤ (0x70000000000000000#68).toNat / 2 ^ 64 ∧
    7 ≤ (0xFFFFFFFFFFFFFFFFF#68).toNat / 2 ^ 64 := by decide

theorem test_witness_unread_bits :
    (0x1FFFFFFFFFFFFFFFF#68).toNat / 2 ^ 64 = (0x10000000000000000#68).toNat / 2 ^ 64 ∧
    (0x1FFFFFFFFFFFFFFFF#68).toNat / 2 ^ 64 = 1 ∧
    (0x2FFFFFFFFFFFFFFFF#68).toNat / 2 ^ 64 = (0x20000000000000000#68).toNat / 2 ^ 64 ∧
    (0x2FFFFFFFFFFFFFFFF#68).toNat / 2 ^ 64 = 2 ∧
    (0x4FFFFFFFFFFFFFFFF#68).toNat / 2 ^ 64 = (0x40000000000000000#68).toNat / 2 ^ 64 ∧
    (0x4FFFFFFFFFFFFFFFF#68).toNat / 2 ^ 64 = 4 ∧
    (0x5FFFFFFFFFFFFFFFF#68).toNat / 2 ^ 64 = (0x50000000000000000#68).toNat / 2 ^ 64 ∧
    (0x5FFFFFFFFFFFFFFFF#68).toNat / 2 ^ 64 = 5 ∧
    (0x6FFFFFFFFFFFFFFF3#68).toNat / 2 ^ 64 = (0x60000000000000003#68).toNat / 2 ^ 64 ∧
    (0x6FFFFFFFFFFFFFFF3#68).toNat / 2 ^ 64 = 6 ∧
    (0x6FFFFFFFFFFFFFFF3#68).toNat % 16 = (0x60000000000000003#68).toNat % 16 ∧
    6 ≤ (6#4).toNat ∧ 6 ≤ (15#4).toNat := by decide

theorem test_witness_step_runs :
    (feed full [0x50000000000000000#68]).inputs = .word .consumer 0x50000000000000000#68 :: [] ∧
    decode 0x50000000000000000#68 = .op .fin := by decide

theorem test_witness_reset :
    ∃ u v, { full with inputs := [.reset] }.inputs = Event.reset :: [] ∧ u.session ≠ .capturing ∧
      exec .start u = .next v := ⟨full, _, rfl, by decide, rfl⟩

theorem test_witness_start :
    (tuple .capturing 7 1460 0 0 false).session = .capturing ∧ (blank .idle).session ≠ .capturing ∧
    (blank .handshaking).session ≠ .capturing ∧ full.session ≠ .capturing ∧ (blank .timedOut).session ≠ .capturing ∧
    invalid.session ≠ .capturing := by decide

theorem test_witness_arm :
    (∃ t, (blank .idle).session = .idle ∧ exec .arm (blank .idle) = .next t) ∧ (blank .handshaking).session ≠ .idle ∧
    invalid.session ≠ .idle := ⟨⟨_, rfl, rfl⟩, by decide, by decide⟩

theorem registerInv_idle : RegisterInv (blank .idle) := by simp [RegisterInv, NothingReceived, blank, tuple]

theorem registerInv_handshaking : RegisterInv (blank .handshaking) := by
  simp [RegisterInv, NothingReceived, blank, tuple]

theorem registerInv_capturing_1 : RegisterInv (tuple .capturing 1 0 0 0 false) := by
  simp [RegisterInv, PartialCapture, tuple]

theorem registerInv_capturing_49 : RegisterInv (tuple .capturing 49 5048 0x028C011100 0x50 false) := by
  simp [RegisterInv, PartialCapture, tuple]

theorem registerInv_timedOut_10 : RegisterInv (tuple .timedOut 10 2864 0xA5 0 false) := by
  simp [RegisterInv, PartialCapture, tuple]

theorem registerInv_timedOut_0 : RegisterInv (blank .timedOut) := by
  simp [RegisterInv, PartialCapture, blank, tuple]

theorem registerInv_complete : RegisterInv full := by simp [RegisterInv, full, tuple]

theorem registerInv_wrong : RegisterInv wrong := by simp [RegisterInv, wrong, tuple]

theorem registerInv_checksumInvalid : RegisterInv invalid := ⟨rfl, rfl, by decide⟩

theorem test_witness_tmo :
    (∃ t, (blank .handshaking).session = .handshaking ∧ exec .tmo (blank .handshaking) = .next t) ∧
    (∃ s t, s.session = .capturing ∧ s.edgeCount = 49 ∧ exec .tmo s = .next t) ∧
    (full.session ≠ .handshaking ∧ full.session ≠ .capturing) :=
  ⟨⟨_, rfl, rfl⟩, ⟨tuple .capturing 49 5048 0x028C011100 0x50 false, _, rfl, rfl, rfl⟩, by decide, by decide⟩

theorem test_witness_fin :
    (blank .idle).session ≠ .complete ∧
    (full.session = .complete ∧ cksumValidate full.rawFrame full.rawChecksum = true) ∧
    (wrong.session = .complete ∧ cksumValidate wrong.rawFrame wrong.rawChecksum = false) := by decide

theorem test_witness_fin_repeats :
    (∃ t, exec .fin full = .next t ∧ t.lastCode = .ok) ∧
    (∃ t, exec .fin wrong = .next t ∧ t.lastCode = .checksumMismatch) ∧
    (∃ t, exec .fin (tuple .capturing 49 0 0 0 false) = .next t) ∧ (∃ t, exec .fin (blank .handshaking) = .next t) ∧
    (∃ t, exec .fin (blank .idle) = .next t) ∧ ∃ t, exec .fin (blank .timedOut) = .next t :=
  ⟨⟨_, rfl, by decide⟩, ⟨_, rfl, by decide⟩, ⟨_, rfl⟩, ⟨_, rfl⟩, ⟨_, rfl⟩, ⟨_, rfl⟩⟩

theorem test_witness_table_start : ∃ s t, RegisterInv s ∧ s.session = .capturing ∧ exec .start s = .next t :=
  ⟨_, _, registerInv_capturing_1, rfl, rfl⟩

theorem test_witness_table_arm : ∃ s t, RegisterInv s ∧ s.session = .idle ∧ exec .arm s = .next t :=
  ⟨_, _, registerInv_idle, rfl, rfl⟩

theorem test_witness_table_edge :
    (∃ s t, RegisterInv s ∧ s.session = .handshaking ∧ exec (.edge 0) s = .next t) ∧
    (∃ s t, RegisterInv s ∧ s.session = .capturing ∧ s.edgeCount.toNat + 1 < 50 ∧ exec (.edge 0) s = .next t) ∧
    (∃ s t, RegisterInv s ∧ s.session = .capturing ∧ ¬ s.edgeCount.toNat + 1 < 50 ∧ exec (.edge 0) s = .next t) ∧
    (∃ s t, RegisterInv s ∧ s.session = .complete ∧ exec (.edge 0) s = .next t) :=
  ⟨⟨_, _, registerInv_handshaking, rfl, rfl⟩, ⟨_, _, registerInv_capturing_1, rfl, by decide, rfl⟩,
    ⟨_, _, registerInv_capturing_49, rfl, by decide, rfl⟩, ⟨_, _, registerInv_complete, rfl, rfl⟩⟩

theorem test_witness_table_tmo_fin_rd :
    (∃ s t, RegisterInv s ∧ s.session = .handshaking ∧ exec .tmo s = .next t) ∧
    (∃ s t, RegisterInv s ∧ s.session = .complete ∧ cksumValidate s.rawFrame s.rawChecksum = false ∧
      exec .fin s = .next t) ∧
    (∃ s t, RegisterInv s ∧ s.session = .complete ∧ cksumValidate s.rawFrame s.rawChecksum = true ∧
      exec .fin s = .next t) ∧
    (∃ s t, RegisterInv s ∧ s.session = .checksumInvalid ∧ exec (.rd 3) s = .next t) :=
  ⟨⟨_, _, registerInv_handshaking, rfl, rfl⟩, ⟨_, _, registerInv_wrong, rfl, by decide, rfl⟩,
    ⟨_, _, registerInv_complete, rfl, by decide, rfl⟩, ⟨_, _, registerInv_checksumInvalid, rfl, rfl⟩⟩

theorem test_witness_table_reset :
    ∃ s t, s.inputs = Event.reset :: [] ∧ step s = .next t := ⟨{ full with inputs := [.reset] }, _, rfl, rfl⟩

theorem test_witness_acceptance_codes :
    (∃ t, exec .start (tuple .capturing 7 1460 0 0 false) = .next t ∧ t.lastCode = .busy) ∧
    (∃ t, exec .arm full = .next t ∧ t.lastCode = .illegalState) ∧
    (∃ t, exec (.rd 6) full = .next t ∧ t.lastCode = .illegalOp) ∧
    (∃ t, exec (.rd 5) full = .next t ∧ t.lastCode = .ok) ∧ (∃ t, exec .fin full = .next t ∧ t.lastCode = .ok) ∧
    (∃ t, exec (.edge 0) full = .next t ∧ t.lastCode = .ok ∧ full.session ≠ .handshaking ∧ full.session ≠ .capturing) :=
  ⟨⟨_, rfl, rfl⟩, ⟨_, rfl, rfl⟩, ⟨_, rfl, rfl⟩, ⟨_, rfl, rfl⟩, ⟨_, rfl, rfl⟩, ⟨_, rfl, rfl, by decide, by decide⟩⟩

/-- Every ordinal where two clauses of R120 meet. -/
theorem test_witness_edge_ordinals :
    (blank .handshaking).session = .handshaking ∧ (blank .handshaking).edgeCount.toNat + 1 = 1 ∧
    (tuple .capturing 1 0 0 0 false).session = .capturing ∧ (tuple .capturing 1 0 0 0 false).edgeCount.toNat + 1 = 2 ∧
    3 ≤ (tuple .capturing 2 0 0 0 false).edgeCount.toNat + 1 ∧ (tuple .capturing 2 0 0 0 false).edgeCount.toNat + 1 ≤ 42 ∧
    3 ≤ (tuple .capturing 41 0 0 0 false).edgeCount.toNat + 1 ∧ (tuple .capturing 41 0 0 0 false).edgeCount.toNat + 1 ≤ 42 ∧
    43 ≤ (tuple .capturing 42 0 0 0 false).edgeCount.toNat + 1 ∧ (tuple .capturing 42 0 0 0 false).edgeCount.toNat + 1 ≤ 49 ∧
    43 ≤ (tuple .capturing 48 0 0 0 false).edgeCount.toNat + 1 ∧ (tuple .capturing 48 0 0 0 false).edgeCount.toNat + 1 ≤ 49 ∧
    (tuple .capturing 49 0 0 0 false).edgeCount.toNat + 1 = 50 ∧
    full.session ≠ .handshaking ∧ full.session ≠ .capturing := by decide

theorem test_witness_classifier :
    (101#64).toNat > Config.thresholdUs.toNat ∧ (100#64).toNat ≤ Config.thresholdUs.toNat := by decide

theorem test_witness_duration :
    (tuple .capturing 3 1000 0 0 false).lastEdgeTime.toNat ≤ (1000#64).toNat ∧
    (999#64).toNat < (tuple .capturing 3 1000 0 0 false).lastEdgeTime.toNat ∧
    (tuple .capturing 3 1000 0 0 false).lastEdgeTime.toNat - (999#64).toNat < 2 ^ 64 - Config.thresholdUs.toNat ∧
    1000#64 = (tuple .capturing 3 1000 0 0 false).lastEdgeTime := by decide

theorem test_witness_ignored_edges :
    let s := feed full [0x30000000000001450#68, 0x3FFFFFFFFFFFFFFFF#68]
    s.session ≠ .handshaking ∧ s.session ≠ .capturing ∧ 1 ≤ 2 ∧ 2 ≤ s.inputs.length ∧
      ∀ e ∈ s.inputs.take 2, e.isEdge = true := by decide

theorem test_witness_fifty_edges :
    ∃ (s : State) (times : Nat → Timestamp), s.session = .handshaking ∧ s.edgeCount = 0 ∧
      s.inputs = (List.range 50).map (fun j => Event.word .producer (encode (.edge (times (j + 1))))) ++ [.reset] :=
  ⟨{ blank .handshaking with
      inputs := (List.range 50).map (fun j => Event.word .producer (encode (.edge (BitVec.ofNat 64 (j + 1))))) ++ [.reset] },
    fun n => BitVec.ofNat 64 n, rfl, rfl, rfl⟩

theorem test_witness_frame_line :
    (100#64).toNat ≤ Config.thresholdUs.toNat ∧ Config.thresholdUs.toNat < (101#64).toNat ∧
    (0#64).toNat ≤ Config.thresholdUs.toNat ∧ Config.thresholdUs.toNat < (0xFFFFFFFFFFFFFFFF#64).toNat := by decide

theorem test_witness_round_trip :
    ∃ (s : State) (words : List OpWord), s.session ≠ .capturing ∧
      (100#64).toNat ≤ Config.thresholdUs.toNat ∧ Config.thresholdUs.toNat < (101#64).toNat ∧
      (0xA0#8).toNat = ((0x02#8).toNat + (0x8C#8).toNat + (0x01#8).toNat + (0x11#8).toNat) % 256 ∧
      assemble none [.op .start, .op .arm, .frame 1000 80 100 101 0x02 0x8C 0x01 0x11 0x00 0xA0, .op .fin] = some words ∧
      s.inputs = words.map (fun w => Event.word (presenter w) w) ++ [] :=
  ⟨{ State.reset with
      inputs := ([encode .start, encode .arm] ++ edgeWords (frameTimes 1000 80 100 101 0x02 0x8C 0x01 0x11 0x00 0xA0) ++
        [encode .fin]).map fun w => Event.word (presenter w) w }, _, by decide, by decide, by decide, by decide, rfl, by
      rw [List.append_nil]; rfl⟩

theorem test_witness_bit_flips :
    cksumValidate full.rawFrame full.rawChecksum = true ∧ (8 ≤ 8 ∧ 8 < 40) ∧ (8 ≤ 39 ∧ 39 < 40) ∧ 0 < 8 ∧ 7 < 8 ∧
    (8 ≤ 24 ∧ 24 < 32 ∧ 32 < 40 ∧ (32 - 24) % 8 = 0 ∧
      BitVec.getLsbD 0x038C011100#40 24 ≠ BitVec.getLsbD 0x038C011100#40 32) := by decide

theorem test_witness_humidity : 0 ≤ 65535 ∧ 65535 ≤ 65535 := by decide

theorem test_witness_temperature :
    BitVec.getLsbD 0x0000009600#40 23 = false ∧ BitVec.getLsbD 0x0000809600#40 23 = true ∧
    (0x0000800000#40).toNat / 2 ^ 8 % 2 ^ 15 = 0 := by decide

theorem test_witness_packed : BitVec.getLsbD 0xFFFFFFFF00#40 23 = true ∧ BitVec.getLsbD 0x0000800000#40 23 = true := by
  decide

theorem test_witness_pad_byte : (0x028C0111FF#40).toNat / 256 = full.rawFrame.toNat / 256 := by decide

theorem test_witness_reserved_index : 6 ≤ (6#4).toNat ∧ 6 ≤ (15#4).toNat := by decide

theorem test_witness_invariant_step :
    (∃ t, RegisterInv (blank .idle) ∧ step (blank .idle) = .next t) ∧
    (∃ t, RegisterInv (tuple .capturing 49 5048 0x028C011100 0x50 false) ∧
      step (tuple .capturing 49 5048 0x028C011100 0x50 false) = .next t) ∧
    (∃ s t, RegisterInv s ∧ s.session = .complete ∧ s.inputs ≠ [] ∧ step s = .next t) ∧
    (∃ t, RegisterInv (tuple .timedOut 10 2864 0xA5 0 false) ∧ step (tuple .timedOut 10 2864 0xA5 0 false) = .next t) ∧
    (∃ t, RegisterInv invalid ∧ step invalid = .next t) :=
  ⟨⟨_, registerInv_idle, rfl⟩, ⟨_, registerInv_capturing_49, rfl⟩,
    ⟨feed wrong [encode .fin], _, ⟨rfl, rfl⟩, rfl, by decide, rfl⟩, ⟨_, registerInv_timedOut_10, rfl⟩,
    ⟨_, registerInv_checksumInvalid, rfl⟩⟩

theorem test_witness_reachable : ∃ s, Reachable s ∧ s.session = .capturing :=
  ⟨_, .afterStep _ _ (.afterStep _ _ (.fromReset (feed State.reset [encode .arm, encode (.edge 7)]).inputs) rfl) rfl, rfl⟩

theorem test_witness_frame :
    (∃ t, exec .start (tuple .capturing 7 1460 0 0 false) = .next t) ∧
    (∃ t, exec (.edge 9) full = .next t ∧ full.session ≠ .handshaking ∧ full.session ≠ .capturing) ∧
    (∃ t, exec (.edge 9) (blank .handshaking) = .next t ∧ (blank .handshaking).edgeCount.toNat + 1 = 1) ∧
    (∃ s t, exec (.edge 9) s = .next t ∧ s.session = .capturing ∧ s.edgeCount.toNat + 1 = 2) ∧
    (∃ s t, exec (.edge 9) s = .next t ∧ s.session = .capturing ∧ s.edgeCount.toNat + 1 = 42) ∧
    (∃ s t, exec (.edge 9) s = .next t ∧ s.session = .capturing ∧ 43 ≤ s.edgeCount.toNat + 1 ∧
      s.edgeCount.toNat + 1 ≠ 50) ∧
    (∃ t, exec (.rd 0) full = .next t) ∧ (∃ t, exec .arm (blank .idle) = .next t) ∧
    (∃ t, exec .tmo (blank .handshaking) = .next t) ∧ ∃ t, exec .fin wrong = .next t :=
  ⟨⟨_, rfl⟩, ⟨_, rfl, by decide, by decide⟩, ⟨_, rfl, by decide⟩,
    ⟨tuple .capturing 1 0 0 0 false, _, rfl, rfl, by decide⟩, ⟨tuple .capturing 41 0 0 0 false, _, rfl, rfl, by decide⟩,
    ⟨tuple .capturing 42 0 0 0 false, _, rfl, rfl, by decide, by decide⟩, ⟨_, rfl⟩, ⟨_, rfl⟩, ⟨_, rfl⟩, ⟨_, rfl⟩⟩

theorem test_witness_done :
    (∃ s t, s.done = false ∧ s.session = .capturing ∧ s.edgeCount.toNat + 1 = 50 ∧
      (∃ e rest, s.inputs = e :: rest ∧ e.isEdge = true) ∧ step s = .next t ∧ t.done = true) ∧
    (∃ s t, s.done = true ∧ s.session ≠ .capturing ∧
      (∃ e rest, s.inputs = e :: rest ∧ e.instr? = some .start) ∧ step s = .next t ∧ t.done = false) :=
  ⟨⟨feed (tuple .capturing 49 0 0 0 false) [encode (.edge 3)], _, rfl, rfl, by decide, ⟨_, _, rfl, by decide⟩, rfl, rfl⟩,
    ⟨feed full [encode .start], _, rfl, by decide, ⟨_, _, rfl, by decide⟩, rfl, rfl⟩⟩

theorem test_witness_edge_count :
    (∃ s t, RegisterInv s ∧ s.session = .handshaking ∧ (∃ e rest, s.inputs = e :: rest ∧ e.isEdge = true) ∧
      step s = .next t ∧ t.edgeCount ≠ s.edgeCount) ∧
    (∃ s t, RegisterInv s ∧ (∃ e rest, s.inputs = e :: rest ∧ e.endsSession = true) ∧ step s = .next t ∧
      t.edgeCount ≠ s.edgeCount) :=
  ⟨⟨feed (blank .handshaking) [encode (.edge 3)], _, ⟨rfl, rfl, rfl, rfl, rfl⟩, rfl, ⟨_, _, rfl, by decide⟩, rfl,
      by decide⟩,
    ⟨feed full [encode .start], _, ⟨rfl, rfl⟩, ⟨_, _, rfl, by decide⟩, rfl, by decide⟩⟩

theorem test_witness_capture_window :
    (∃ s t, s.session = .capturing ∧ exec .tmo s = .next t) ∧ (∃ s t, s.session = .capturing ∧ exec .start s = .next t) ∧
    (∃ t, full.session ≠ .handshaking ∧ full.session ≠ .capturing ∧ exec (.edge 0) full = .next t) ∧
    (∃ t, (blank .handshaking).session = .handshaking ∧ RegisterInv (blank .handshaking) ∧
      exec (.edge 7) (blank .handshaking) = .next t) ∧
    (∃ t, full.session ≠ .idle ∧ exec .arm full = .next t) ∧
    (∃ t, invalid.session ≠ .complete ∧ exec .fin invalid = .next t) :=
  ⟨⟨tuple .capturing 1 0 0 0 false, _, rfl, rfl⟩, ⟨tuple .capturing 1 0 0 0 false, _, rfl, rfl⟩,
    ⟨_, by decide, by decide, rfl⟩, ⟨_, rfl, registerInv_handshaking, rfl⟩, ⟨_, by decide, rfl⟩, ⟨_, by decide, rfl⟩⟩

/-- Both contexts in a list that keeps the discipline of R80. -/
theorem test_witness_contexts :
    (∃ s w rest t, AgentDiscipline s ∧ s.inputs = .word .producer w :: rest ∧ s.session ≠ .handshaking ∧
      s.session ≠ .capturing ∧ step s = .next t) ∧
    (∃ s w rest t, AgentDiscipline s ∧ s.inputs = .word .consumer w :: rest ∧ s.session = .capturing ∧
      step s = .next t) := by
  constructor
  · refine ⟨feed full [encode (.edge 3)], _, _, _, ?_, rfl, by decide, by decide, rfl⟩
    intro issuer w i hw hd
    simp only [feed, List.map, List.mem_singleton] at hw
    cases hw
    cases hd
    rfl
  · refine ⟨feed (tuple .capturing 1 0 0 0 false) [encode .tmo], _, _, _, ?_, rfl, by decide, rfl⟩
    intro issuer w i hw hd
    simp only [feed, List.map, List.mem_singleton] at hw
    cases hw
    cases hd
    rfl

theorem test_witness_completed_frame :
    ∃ t, RegisterInv (feed wrong [encode .fin, encode (.edge 9)]) ∧ (feed wrong [encode .fin, encode (.edge 9)]).done = true ∧
      (∀ e ∈ (feed wrong [encode .fin, encode (.edge 9)]).inputs.take 2, e.endsSession = false) ∧
      core.run 2 (feed wrong [encode .fin, encode (.edge 9)]) = .next t :=
  ⟨_, ⟨rfl, rfl⟩, rfl, by decide, rfl⟩

theorem test_witness_errors :
    (∃ t r, exec .start (tuple .capturing 7 1460 0 0 false) = .next t ∧ t.response = some r ∧ r.code = .busy) ∧
    (∃ t r, exec .tmo (blank .handshaking) = .next t ∧ t.response = some r ∧ r.code = .timeout) ∧
    (∃ t r, exec .fin wrong = .next t ∧ t.response = some r ∧ r.code = .checksumMismatch) ∧
    (∃ t r, exec .arm full = .next t ∧ t.response = some r ∧ r.code = .illegalState) ∧
    (∃ t r, exec (.rd 6) full = .next t ∧ t.response = some r ∧ r.code = .illegalOp) ∧
    (∃ s issuer w rest t, s.inputs = .word issuer w :: rest ∧ decode w = .reservedOpcode 7 ∧ step s = .next t) :=
  ⟨⟨_, _, rfl, rfl, rfl⟩, ⟨_, _, rfl, rfl, rfl⟩, ⟨_, _, rfl, rfl, rfl⟩, ⟨_, _, rfl, rfl, rfl⟩, ⟨_, _, rfl, rfl, rfl⟩,
    ⟨feed full [0x70000000000000000#68], _, _, _, _, rfl, by decide, rfl⟩⟩

theorem test_witness_races :
    ((tuple .capturing 49 5048 0x028C011100 0x50 false).session = .capturing ∧
      (tuple .capturing 49 5048 0x028C011100 0x50 false).edgeCount = 49) ∧
    ((blank .handshaking).session = .handshaking ∧ (blank .handshaking).edgeCount = 0) := by decide

theorem test_witness_fresh_start :
    full.session ≠ .capturing ∧ (tuple .timedOut 10 2864 0xA5 0 false).session ≠ .capturing ∧
    decode 0x10000000000000000#68 = .op .start := by decide

theorem test_witness_issuer :
    ∃ s t events, List.Forall₂ Event.sameWord s.inputs events ∧ s.inputs ≠ events ∧ core.run 1 s = .next t :=
  ⟨{ blank .idle with inputs := [.word .consumer (encode .arm), .reset] }, _, [.word .producer (encode .arm), .reset],
    .cons rfl (.cons trivial .nil), by decide, rfl⟩

/-- Two EDGE words with the reference time itself. -/
def steady : State := feed (tuple .capturing 2 1000 0 0 false) [encode (.edge 1000), encode (.edge 1000)]

theorem steady_times : edgeTimes steady.inputs = [1000, 1000] := by decide

theorem steady_monotonic : MonotonicTimestamps steady := by
  simp only [MonotonicTimestamps, steady_times]
  simp [steady, feed, tuple]

theorem test_witness_monotonic :
    ∃ s t w rest, MonotonicTimestamps s ∧ step s = .next t ∧ s.inputs = .word .producer w :: rest ∧
      decode w = .op (.edge 1000) ∧ 2 ≤ s.edgeCount.toNat :=
  ⟨steady, _, _, _, steady_monotonic, rfl, rfl, by decide, by decide⟩

theorem test_witness_cycle_ends :
    (∃ t, exec .tmo (blank .handshaking) = .next t ∧ endsCycle .tmo t.lastCode = true) ∧
    (∃ t, exec .fin full = .next t ∧ endsCycle .fin t.lastCode = true) ∧
    (∃ t, exec .fin wrong = .next t ∧ endsCycle .fin t.lastCode = true) :=
  ⟨⟨_, rfl, rfl⟩, ⟨_, rfl, rfl⟩, ⟨_, rfl, rfl⟩⟩

/-- The sizes of the read cycle's clauses, 49 and 50 edges. -/
theorem test_witness_cycle_sizes :
    (tuple .capturing 1 0 0 0 false).session = .capturing ∧ full.session ≠ .capturing ∧
    (List.replicate 49 (0#64)).length + ([] : List Timestamp).length < 50 ∧
    50 ≤ (List.replicate 49 (0#64)).length + [0#64].length := by decide

/-- A capture of `c` edges, all at time 0, latest response OK. -/
def zeros (c : Nat) : State := { tuple .capturing (BitVec.ofNat 32 c) 0 0 0 false with response := some ⟨.ok, 0⟩ }

theorem zeros_step : ∀ c < 49, 1 ≤ c → issue (.edge 0) (zeros c) = zeros (c + 1) := by decide

theorem zeros_run (k c : Nat) (hc : 1 ≤ c) (h : c + k ≤ 49) :
    (List.replicate k (0 : Timestamp)).foldl (fun s ts => issue (.edge ts) s) (zeros c) = zeros (c + k) := by
  induction k generalizing c with
  | zero => rfl
  | succ k ih =>
    rw [List.replicate_succ, List.foldl_cons, zeros_step c (by omega) hc, ih (c + 1) (by omega) (by omega)]
    congr 1
    omega

/-- 49 edges at time 0 after START and ARM in any state that is not `Capturing`, here `full`. -/
theorem zeros_cycle : issueEdges (List.replicate 49 0) (issue .arm (issue .start full)) = zeros 49 := by
  rw [issueEdges, List.replicate_succ, List.foldl_cons,
    show issue (.edge 0) (issue .arm (issue .start full)) = zeros 1 from rfl]
  exact zeros_run 48 1 (by omega) (by omega)

/-- 50 edges without any time between them, the last after the host's last look at DONE: the frame of zeros, whose
checksum is 0. -/
theorem test_witness_cycle_match :
    cksumValidate (readCycle (List.replicate 49 0) [0] full).rawFrame
      (readCycle (List.replicate 49 0) [0] full).rawChecksum = true := by
  rw [readCycle, zeros_cycle]
  rfl

/-- The last of 50 edges a long time after the others: transmitted checksum 1. -/
theorem test_witness_cycle_mismatch :
    cksumValidate (readCycle (List.replicate 49 0 ++ [101]) [] full).rawFrame
      (readCycle (List.replicate 49 0 ++ [101]) [] full).rawChecksum = false := by
  have h := zeros_cycle
  rw [issueEdges] at h
  rw [readCycle, issueEdges, List.foldl_append, h]
  rfl

end Sys2Proof.Tests
end

/-! PROOFS of the family 10_state: the registers of spec/10_state.md, what each operation does to them, and the invariant
of R32. -/

namespace Sys2Proof.Machine

/-! ## What each operation of the consumer can do -/

/-- START (R100). -/
theorem execStart_cases {s t : State} (h : execStart s = .next t) :
    (s.session = .capturing ∧ t = s.raise .busy 0) ∨
    (s.session ≠ .capturing ∧ t = s.clearRegisters.respond .ok 0) := by
  unfold execStart at h
  split at h <;> cases h
  case isTrue hcap => exact .inl ⟨hcap, rfl⟩
  case isFalse hcap => exact .inr ⟨hcap, rfl⟩

/-- ARM (R103). -/
theorem execArm_cases {s t : State} (h : execArm s = .next t) :
    (s.session = .idle ∧ t = (s.setSession .handshaking).respond .ok 0) ∨
    (s.session ≠ .idle ∧ t = s.raiseIllegalState) := by
  unfold execArm at h
  split at h <;> cases h
  case isTrue hne => exact .inr ⟨hne, rfl⟩
  case isFalse hidle => exact .inl ⟨not_not.mp hidle, rfl⟩

/-- TMO (R106). -/
theorem execTmo_cases {s t : State} (h : execTmo s = .next t) :
    ((s.session = .handshaking ∨ s.session = .capturing) ∧ t = (s.setSession .timedOut).respond .timeout 0) ∨
    (s.session ≠ .handshaking ∧ s.session ≠ .capturing ∧ t = s.raiseIllegalState) := by
  unfold execTmo at h
  split at h <;> cases h
  case isTrue hclosed => exact .inr ⟨hclosed.1, hclosed.2, rfl⟩
  case isFalse hopen => exact .inl ⟨by tauto, rfl⟩

theorem execFin_of_not_complete {s : State} (h : s.session ≠ .complete) : execFin s = .next s.raiseIllegalState := by
  simp [execFin, h]

theorem execFin_of_match {s : State} (h : s.session = .complete) (hv : cksumValidate s.rawFrame s.rawChecksum = true) :
    execFin s = .next (s.respond .ok (pack (decodeReading s.rawFrame true))) := by
  simp [execFin, h, hv]

theorem execFin_of_mismatch {s : State} (h : s.session = .complete)
    (hv : cksumValidate s.rawFrame s.rawChecksum = false) :
    execFin s =
      .next ((s.setSession .checksumInvalid).raise .checksumMismatch (pack (decodeReading s.rawFrame false))) := by
  simp [execFin, h, hv]

/-- FIN (R108). -/
theorem execFin_cases {s t : State} (h : execFin s = .next t) :
    (s.session ≠ .complete ∧ t = s.raiseIllegalState) ∨
    (s.session = .complete ∧ cksumValidate s.rawFrame s.rawChecksum = true ∧
      t = s.respond .ok (pack (decodeReading s.rawFrame true))) ∨
    (s.session = .complete ∧ cksumValidate s.rawFrame s.rawChecksum = false ∧
      t = (s.setSession .checksumInvalid).raise .checksumMismatch (pack (decodeReading s.rawFrame false))) := by
  by_cases hc : s.session = .complete
  · cases hv : cksumValidate s.rawFrame s.rawChecksum
    · rw [execFin_of_mismatch hc hv] at h
      cases h
      exact .inr (.inr ⟨hc, rfl, rfl⟩)
    · rw [execFin_of_match hc hv] at h
      cases h
      exact .inr (.inl ⟨hc, rfl, rfl⟩)
  · rw [execFin_of_not_complete hc] at h
    cases h
    exact .inl ⟨hc, rfl⟩

/-- RD (R160, R161). -/
theorem execRd_cases {idx : RegIndex} {s t : State} (h : execRd idx s = .next t) :
    (∃ v, readRegister s idx = some v ∧ t = s.respond .ok v) ∨
    (readRegister s idx = none ∧ t = s.respond .illegalOp 0) := by
  unfold execRd at h
  split at h <;> cases h
  case h_1 v hv => exact .inl ⟨v, hv, rfl⟩
  case h_2 hv => exact .inr ⟨hv, rfl⟩

/-! ## An accepted edge, register by register -/

/-- The five ranges of the ordinal that R120 distinguishes. -/
theorem ordinal_range (s : State) :
    ordinal s = 1 ∨ ordinal s = 2 ∨ (3 ≤ ordinal s ∧ ordinal s ≤ 42) ∨ (43 ≤ ordinal s ∧ ordinal s ≠ 50) ∨
      ordinal s = 50 := by
  unfold ordinal
  omega

/-- R120 for every ordinal at once. -/
theorem acceptEdge_eq (s : State) (ts : Timestamp) :
    acceptEdge s ts =
      { s with
        session := if ordinal s = 50 then .complete else .capturing
        edgeCount := BitVec.ofNat 32 (ordinal s)
        lastEdgeTime := if ordinal s = 1 then s.lastEdgeTime else ts
        rawFrame :=
          if 3 ≤ ordinal s ∧ ordinal s ≤ 42 then shiftIn s.rawFrame (bitOf (classify (deltaOf s ts)))
          else s.rawFrame
        rawChecksum :=
          if 43 ≤ ordinal s then shiftIn s.rawChecksum (bitOf (classify (deltaOf s ts))) else s.rawChecksum
        done := s.done || decide (ordinal s = 50) } := by
  obtain h | h | ⟨h3, h42⟩ | ⟨h43, h50⟩ | h := ordinal_range s
  · rw [acceptEdge_first ts h]
    simp [h]
  · rw [acceptEdge_second ts h]
    simp [h]
  · rw [acceptEdge_data ts h3 h42]
    simp [h3, h42, show ordinal s ≠ 1 by omega, show ¬ 43 ≤ ordinal s by omega, show ordinal s ≠ 50 by omega]
  · rw [acceptEdge_checksum ts h43 h50]
    simp [h43, h50, show ordinal s ≠ 1 by omega, show ¬ ordinal s ≤ 42 by omega]
  · rw [acceptEdge_last ts h]
    simp [h]

theorem acceptEdge_session (s : State) (ts : Timestamp) :
    (acceptEdge s ts).session = if ordinal s = 50 then .complete else .capturing := by
  rw [acceptEdge_eq]

theorem acceptEdge_edgeCount (s : State) (ts : Timestamp) :
    (acceptEdge s ts).edgeCount = BitVec.ofNat 32 (ordinal s) := by
  rw [acceptEdge_eq]

theorem acceptEdge_lastEdgeTime (s : State) (ts : Timestamp) :
    (acceptEdge s ts).lastEdgeTime = if ordinal s = 1 then s.lastEdgeTime else ts := by
  rw [acceptEdge_eq]

theorem acceptEdge_rawFrame (s : State) (ts : Timestamp) :
    (acceptEdge s ts).rawFrame =
      if 3 ≤ ordinal s ∧ ordinal s ≤ 42 then shiftIn s.rawFrame (bitOf (classify (deltaOf s ts)))
      else s.rawFrame := by
  rw [acceptEdge_eq]

theorem acceptEdge_rawChecksum (s : State) (ts : Timestamp) :
    (acceptEdge s ts).rawChecksum =
      if 43 ≤ ordinal s then shiftIn s.rawChecksum (bitOf (classify (deltaOf s ts))) else s.rawChecksum := by
  rw [acceptEdge_eq]

theorem acceptEdge_done (s : State) (ts : Timestamp) :
    (acceptEdge s ts).done = (s.done || decide (ordinal s = 50)) := by
  rw [acceptEdge_eq]

/-- Within a capture of at most 49 edges the count does not wrap (R24). -/
theorem acceptEdge_edgeCount_toNat {s : State} (ts : Timestamp) (h : s.edgeCount.toNat ≤ 49) :
    (acceptEdge s ts).edgeCount.toNat = s.edgeCount.toNat + 1 := by
  rw [acceptEdge_edgeCount, ordinal, BitVec.toNat_ofNat, Nat.mod_eq_of_lt (by omega)]

/-! ## Frames -/

theorem sameRegisters_respond (s : State) (c : ResponseCode) (d : BitVec 64) : SameRegisters s (s.respond c d) :=
  ⟨rfl, rfl, rfl, rfl, rfl, rfl⟩

theorem sameRegisters_setInputs (s : State) (rest : List Event) : SameRegisters s (s.setInputs rest) :=
  ⟨rfl, rfl, rfl, rfl, rfl, rfl⟩

/-- RD writes no register (R54, R160). -/
theorem execRd_sameRegisters {idx : RegIndex} {s t : State} (h : execRd idx s = .next t) : SameRegisters s t := by
  obtain ⟨v, -, rfl⟩ | ⟨-, rfl⟩ := execRd_cases h
  · exact sameRegisters_respond s _ _
  · exact sameRegisters_respond s _ _

/-- Of the six registers, ARM, TMO, FIN and RD write STATE at most. -/
theorem exec_changes_session_only {i : Instr} {s t : State} (h : exec i s = .next t) (hstart : i ≠ .start)
    (hedge : ∀ ts, i ≠ .edge ts) : SameRegisters (s.setSession t.session) t := by
  cases i with
  | start => exact absurd rfl hstart
  | edge ts => exact absurd rfl (hedge ts)
  | arm => obtain ⟨-, rfl⟩ | ⟨-, rfl⟩ := execArm_cases h <;> exact ⟨rfl, rfl, rfl, rfl, rfl, rfl⟩
  | tmo => obtain ⟨-, rfl⟩ | ⟨-, -, rfl⟩ := execTmo_cases h <;> exact ⟨rfl, rfl, rfl, rfl, rfl, rfl⟩
  | fin => obtain ⟨-, rfl⟩ | ⟨-, -, rfl⟩ | ⟨-, -, rfl⟩ := execFin_cases h <;> exact ⟨rfl, rfl, rfl, rfl, rfl, rfl⟩
  | rd idx =>
    obtain ⟨-, hkeep⟩ := execRd_sameRegisters h
    exact ⟨rfl, hkeep⟩

/-- No operation touches the events to come. -/
theorem exec_inputs {i : Instr} {s t : State} (h : exec i s = .next t) : t.inputs = s.inputs := by
  cases i with
  | start => obtain ⟨-, rfl⟩ | ⟨-, rfl⟩ := execStart_cases h <;> rfl
  | arm => obtain ⟨-, rfl⟩ | ⟨-, rfl⟩ := execArm_cases h <;> rfl
  | edge ts => obtain ⟨-, -, rfl⟩ | ⟨-, rfl⟩ := execEdge_cases h <;> simp
  | tmo => obtain ⟨-, rfl⟩ | ⟨-, -, rfl⟩ := execTmo_cases h <;> rfl
  | fin => obtain ⟨-, rfl⟩ | ⟨-, -, rfl⟩ | ⟨-, -, rfl⟩ := execFin_cases h <;> rfl
  | rd idx => obtain ⟨v, -, rfl⟩ | ⟨-, rfl⟩ := execRd_cases h <;> rfl

/-! ## The invariant of R32, line by line -/

theorem registerInv_iff_of_idle {s : State} (h : s.session = .idle) : RegisterInv s ↔ NothingReceived s := by
  simp [RegisterInv, h]

theorem registerInv_iff_of_handshaking {s : State} (h : s.session = .handshaking) :
    RegisterInv s ↔ NothingReceived s := by
  simp [RegisterInv, h]

theorem registerInv_iff_of_capturing {s : State} (h : s.session = .capturing) :
    RegisterInv s ↔ 1 ≤ s.edgeCount.toNat ∧ PartialCapture s := by
  simp [RegisterInv, h]

theorem registerInv_iff_of_complete {s : State} (h : s.session = .complete) :
    RegisterInv s ↔ s.edgeCount = 50 ∧ s.done = true := by
  simp [RegisterInv, h]

theorem registerInv_iff_of_timedOut {s : State} (h : s.session = .timedOut) : RegisterInv s ↔ PartialCapture s := by
  simp [RegisterInv, h]

theorem registerInv_iff_of_checksumInvalid {s : State} (h : s.session = .checksumInvalid) :
    RegisterInv s ↔ s.edgeCount = 50 ∧ s.done = true ∧ cksumValidate s.rawFrame s.rawChecksum = false := by
  simp [RegisterInv, h]

theorem PartialCapture.edgeCount_le {s : State} (h : PartialCapture s) : s.edgeCount.toNat ≤ 49 := h.1

/-- Nothing received is the capture of 0 edges. -/
theorem NothingReceived.partialCapture {s : State} (h : NothingReceived s) : PartialCapture s := by
  obtain ⟨hcount, hdone, hframe, hck, hlast⟩ := h
  simp [PartialCapture, hcount, hdone, hframe, hck, hlast]

/-- In a state of R32 either at most 49 edges of a frame have come, or all 50 have. -/
theorem RegisterInv.partial_or_full {s : State} (h : RegisterInv s) :
    (PartialCapture s ∧ s.session ≠ .complete ∧ s.session ≠ .checksumInvalid) ∨
    (s.edgeCount = 50 ∧ s.done = true ∧ (s.session = .complete ∨ s.session = .checksumInvalid)) := by
  cases hs : s.session with
  | idle => exact .inl ⟨((registerInv_iff_of_idle hs).mp h).partialCapture, by simp, by simp⟩
  | handshaking => exact .inl ⟨((registerInv_iff_of_handshaking hs).mp h).partialCapture, by simp, by simp⟩
  | capturing => exact .inl ⟨((registerInv_iff_of_capturing hs).mp h).2, by simp, by simp⟩
  | timedOut => exact .inl ⟨(registerInv_iff_of_timedOut hs).mp h, by simp, by simp⟩
  | complete =>
    obtain ⟨hcount, hdone⟩ := (registerInv_iff_of_complete hs).mp h
    exact .inr ⟨hcount, hdone, .inl rfl⟩
  | checksumInvalid =>
    obtain ⟨hcount, hdone, -⟩ := (registerInv_iff_of_checksumInvalid hs).mp h
    exact .inr ⟨hcount, hdone, .inr rfl⟩

/-- An open window belongs to a capture of at most 49 edges. -/
theorem RegisterInv.partialCapture {s : State} (h : RegisterInv s)
    (hopen : s.session = .handshaking ∨ s.session = .capturing) : PartialCapture s := by
  obtain ⟨hp, -⟩ | ⟨-, -, hfull⟩ := h.partial_or_full
  · exact hp
  · obtain hs | hs := hopen <;> simp [hs] at hfull

/-! ## Every step keeps the invariant -/

/-- One more bit doubles an accumulator's bound. -/
theorem shiftIn_toNat_lt {width k : Nat} {acc : BitVec width} (bit : BitVec 1) (hw : 1 ≤ width)
    (h : acc.toNat < 2 ^ k) : (shiftIn acc bit).toNat < 2 ^ (k + 1) := by
  have hbit := bit.isLt
  calc (shiftIn acc bit).toNat = (2 * acc.toNat + bit.toNat) % 2 ^ width := shiftIn_toNat acc bit hw
    _ ≤ 2 * acc.toNat + bit.toNat := Nat.mod_le _ _
    _ < 2 ^ (k + 1) := by omega

/-- An accepted edge before the 50th extends a partial capture by one edge. -/
theorem partialCapture_acceptEdge {s : State} (h : PartialCapture s) (ts : Timestamp) (h50 : ordinal s ≠ 50) :
    PartialCapture (acceptEdge s ts) := by
  obtain ⟨hcount, hdone, hframe, hck, hlast⟩ := h
  have hn : ordinal s = s.edgeCount.toNat + 1 := rfl
  unfold PartialCapture
  rw [acceptEdge_edgeCount_toNat ts hcount, acceptEdge_done, acceptEdge_rawFrame, acceptEdge_rawChecksum,
    acceptEdge_lastEdgeTime]
  refine ⟨by omega, by simp [hdone, h50], fun h42 => ?_, ?_, fun h1 => ?_⟩
  · have hF := hframe (by omega)
    split_ifs with hdata
    · rw [show max (s.edgeCount.toNat + 1) 2 - 2 = max s.edgeCount.toNat 2 - 2 + 1 by omega]
      exact shiftIn_toNat_lt _ (by omega) hF
    · rwa [show max (s.edgeCount.toNat + 1) 2 - 2 = max s.edgeCount.toNat 2 - 2 by omega]
  · split_ifs with hck43
    · rw [show max (s.edgeCount.toNat + 1) 42 - 42 = max s.edgeCount.toNat 42 - 42 + 1 by omega]
      exact shiftIn_toNat_lt _ (by omega) hck
    · rwa [show max (s.edgeCount.toNat + 1) 42 - 42 = max s.edgeCount.toNat 42 - 42 by omega]
  · rw [if_pos (by omega), hlast (by omega)]

/-- An accepted edge goes from the open window to `Capturing`, or with edge 50 to `Complete`, as R32 has them. -/
theorem registerInv_acceptEdge {s : State} (h : PartialCapture s) (ts : Timestamp) :
    RegisterInv (acceptEdge s ts) := by
  by_cases h50 : ordinal s = 50
  · rw [acceptEdge_last ts h50]
    exact (registerInv_iff_of_complete rfl).mpr ⟨rfl, rfl⟩
  · have hs : (acceptEdge s ts).session = .capturing := by rw [acceptEdge_session, if_neg h50]
    refine (registerInv_iff_of_capturing hs).mpr ⟨?_, partialCapture_acceptEdge h ts h50⟩
    rw [acceptEdge_edgeCount_toNat ts h.edgeCount_le]
    omega

theorem registerInv_clearRegisters (s : State) : RegisterInv s.clearRegisters :=
  (registerInv_iff_of_idle rfl).mpr ⟨rfl, rfl, rfl, rfl, rfl⟩

/-- A response leaves the invariant as it is. -/
theorem RegisterInv.respond {s : State} (h : RegisterInv s) (c : ResponseCode) (d : BitVec 64) :
    RegisterInv (s.respond c d) :=
  h.of_sameRegisters (sameRegisters_respond s c d)

theorem exec_keeps_registerInv {i : Instr} {s t : State} (hinv : RegisterInv s) (h : exec i s = .next t) :
    RegisterInv t := by
  cases i with
  | start =>
    obtain ⟨-, rfl⟩ | ⟨-, rfl⟩ := execStart_cases h
    · exact hinv.respond _ _
    · exact (registerInv_clearRegisters s).respond _ _
  | arm =>
    obtain ⟨hidle, rfl⟩ | ⟨-, rfl⟩ := execArm_cases h
    · exact (registerInv_iff_of_handshaking rfl).mpr ((registerInv_iff_of_idle hidle).mp hinv)
    · exact hinv.respond _ _
  | edge ts =>
    obtain ⟨-, -, rfl⟩ | ⟨hopen, rfl⟩ := execEdge_cases h
    · exact hinv.respond _ _
    · exact (registerInv_acceptEdge (hinv.partialCapture hopen) ts).respond _ _
  | tmo =>
    obtain ⟨hopen, rfl⟩ | ⟨-, -, rfl⟩ := execTmo_cases h
    · exact (registerInv_iff_of_timedOut rfl).mpr (hinv.partialCapture hopen)
    · exact hinv.respond _ _
  | fin =>
    obtain ⟨-, rfl⟩ | ⟨-, -, rfl⟩ | ⟨hc, hv, rfl⟩ := execFin_cases h
    · exact hinv.respond _ _
    · exact hinv.respond _ _
    · obtain ⟨hcount, hdone⟩ := (registerInv_iff_of_complete hc).mp hinv
      exact (registerInv_iff_of_checksumInvalid rfl).mpr ⟨hcount, hdone, hv⟩
  | rd idx => exact hinv.of_sameRegisters (execRd_sameRegisters h)

/-- Settles O33: the invariant does not see the events to come, and each of the six operations keeps its table. -/
theorem stepKeepsTheRegisterInvariant : Obligations.StepKeepsTheRegisterInvariant := by
  intro s t hinv h
  have htaken (rest : List Event) : RegisterInv (s.setInputs rest) :=
    hinv.of_sameRegisters (sameRegisters_setInputs s rest)
  obtain ⟨-, rfl⟩ | ⟨rest, -, rfl⟩ | ⟨_, _, rest, _, -, -, rfl⟩ | ⟨_, _, rest, i, -, -, hi⟩ := step_cases h
  · exact hinv
  · exact registerInv_clearRegisters (s.setInputs rest)
  · exact (htaken rest).respond _ _
  · exact exec_keeps_registerInv (htaken rest) hi

/-- Settles O34: nothing has been received after reset. -/
theorem resetMeetsTheRegisterInvariant : Obligations.ResetMeetsTheRegisterInvariant :=
  (registerInv_iff_of_idle rfl).mpr ⟨rfl, rfl, rfl, rfl, rfl⟩

/-! ## Reachable states -/

theorem Reachable.registerInv {s : State} (h : Reachable s) : RegisterInv s := by
  induction h with
  | fromReset events => exact resetMeetsTheRegisterInvariant.of_sameRegisters (sameRegisters_setInputs _ events)
  | afterStep s t _ hstep ih => exact stepKeepsTheRegisterInvariant s t ih hstep

theorem RegisterInv.edgeCount_le {s : State} (h : RegisterInv s) : s.edgeCount.toNat ≤ 50 := by
  obtain ⟨⟨hcount, -⟩, -⟩ | ⟨hcount, -⟩ := h.partial_or_full
  · omega
  · simp [hcount]

theorem RegisterInv.done_iff {s : State} (h : RegisterInv s) :
    s.done = true ↔ s.session = .complete ∨ s.session = .checksumInvalid := by
  obtain ⟨⟨-, hdone, -⟩, hc, hi⟩ | ⟨-, hdone, hs⟩ := h.partial_or_full
  · simp [hdone, hc, hi]
  · simp [hdone, hs]

/-- From edge 42 on the bound is the width of RAW_FRAME. -/
theorem RegisterInv.rawFrame_lt {s : State} (h : RegisterInv s) :
    s.rawFrame.toNat < 2 ^ (min s.edgeCount.toNat 42 - 2) := by
  by_cases h42 : 42 ≤ s.edgeCount.toNat
  · rw [min_eq_right h42]
    exact s.rawFrame.isLt
  · obtain ⟨⟨-, -, hframe, -⟩, -⟩ | ⟨hcount, -⟩ := h.partial_or_full
    · rw [show min s.edgeCount.toNat 42 - 2 = max s.edgeCount.toNat 2 - 2 by omega]
      exact hframe (by omega)
    · simp [hcount] at h42

/-- With all 50 edges the bound is the width of RAW_CHECKSUM. -/
theorem RegisterInv.rawChecksum_lt {s : State} (h : RegisterInv s) :
    s.rawChecksum.toNat < 2 ^ (s.edgeCount.toNat - 42) := by
  obtain ⟨⟨-, -, -, hck, -⟩, -⟩ | ⟨hcount, -⟩ := h.partial_or_full
  · rwa [show s.edgeCount.toNat - 42 = max s.edgeCount.toNat 42 - 42 by omega]
  · rw [hcount]
    exact s.rawChecksum.isLt

/-- Settles O35: the invariant holds in every reachable state and implies every other clause. -/
theorem reachableStatesCountTheirEdges : Obligations.ReachableStatesCountTheirEdges := by
  intro s hs
  have hinv := hs.registerInv
  refine ⟨hinv, hinv.edgeCount_le, hinv.done_iff, fun hcap => ?_, hinv.rawFrame_lt, hinv.rawChecksum_lt⟩
  obtain ⟨h1, h49, -⟩ := (registerInv_iff_of_capturing hcap).mp hinv
  exact ⟨h1, h49⟩

/-! ## What each operation leaves unchanged -/

/-- Settles O36, by operation; EDGE by what each register holds after an accepted edge. -/
theorem operationsLeaveTheirFrame : Obligations.OperationsLeaveTheirFrame := by
  intro i s t h
  refine ⟨exec_inputs h, ?_⟩
  cases i with
  | start =>
    intro hcap
    obtain ⟨-, rfl⟩ | ⟨hne, -⟩ := execStart_cases h
    · exact sameRegisters_respond s _ _
    · exact absurd hcap hne
  | edge ts =>
    obtain ⟨-, -, rfl⟩ | ⟨hopen, rfl⟩ := execEdge_cases h
    · simp [sameRegisters_respond]
    · have hn : ordinal s = s.edgeCount.toNat + 1 := rfl
      simp only [State.respond_lastEdgeTime, State.respond_rawFrame, State.respond_rawChecksum, State.respond_done,
        acceptEdge_lastEdgeTime, acceptEdge_rawFrame, acceptEdge_rawChecksum, acceptEdge_done, ← hn]
      refine ⟨fun hh hc => absurd hopen (by simp [hh, hc]), fun h1 => if_pos h1,
        fun h2 => ⟨if_neg (by omega), if_neg (by omega)⟩, fun h42 => if_neg (by omega), fun h43 => if_neg (by omega),
        fun h50 => by simp [h50]⟩
  | arm | tmo | fin => exact (exec_changes_session_only h (by simp) (by simp)).2
  | rd idx => exact execRd_sameRegisters h

/-! ## What an event presents -/

@[simp] theorem Event.instr?_reset : Event.reset.instr? = none := rfl

@[simp] theorem Event.isEdge_reset : Event.reset.isEdge = false := rfl

theorem Event.instr?_of_decode {w : OpWord} {i : Instr} (issuer : Agent) (h : decode w = .op i) :
    (Event.word issuer w).instr? = some i := by
  simp [Event.instr?, h]

theorem Event.instr?_of_reserved {w : OpWord} {opcode : BitVec 4} (issuer : Agent)
    (h : decode w = .reservedOpcode opcode) : (Event.word issuer w).instr? = none := by
  simp [Event.instr?, h]

/-- An event presents an EDGE when the operation it presents is one. -/
theorem Event.isEdge_iff_instr? (e : Event) : e.isEdge = true ↔ ∃ ts, e.instr? = some (.edge ts) := by
  simp only [Event.isEdge]
  split <;> simp_all

theorem Event.endsSession_iff (e : Event) : e.endsSession = true ↔ e = .reset ∨ e.instr? = some .start := by
  simp [Event.endsSession]

/-! ## DONE -/

theorem exec_done_rises_iff {i : Instr} {s t : State} (h : exec i s = .next t) (h0 : s.done = false) :
    t.done = true ↔ (s.session = .handshaking ∨ s.session = .capturing) ∧ ordinal s = 50 ∧ ∃ ts, i = .edge ts := by
  cases i with
  | start => obtain ⟨-, rfl⟩ | ⟨-, rfl⟩ := execStart_cases h <;> simp [h0]
  | edge ts =>
    obtain ⟨hh, hc, rfl⟩ | ⟨hopen, rfl⟩ := execEdge_cases h
    · simp [h0, hh, hc]
    · simp [h0, hopen, acceptEdge_done]
  | arm | tmo | fin | rd _ =>
    obtain ⟨-, -, -, -, -, hdone⟩ := exec_changes_session_only h (by simp) (by simp)
    simp [hdone, h0]

theorem exec_done_falls_iff {i : Instr} {s t : State} (h : exec i s = .next t) (h1 : s.done = true) :
    t.done = false ↔ i = .start ∧ s.session ≠ .capturing := by
  cases i with
  | start => obtain ⟨hs, rfl⟩ | ⟨hs, rfl⟩ := execStart_cases h <;> simp [h1, hs]
  | edge ts => obtain ⟨-, -, rfl⟩ | ⟨-, rfl⟩ := execEdge_cases h <;> simp [h1, acceptEdge_done]
  | arm | tmo | fin | rd _ =>
    obtain ⟨-, -, -, -, -, hdone⟩ := exec_changes_session_only h (by simp) (by simp)
    simp [hdone, h1]

/-- Settles O37: only EDGE and START write DONE among the operations, and reset clears it. -/
theorem doneIsSetByEdge50AndClearedByStartOrReset : Obligations.DoneIsSetByEdge50AndClearedByStartOrReset := by
  intro s t h
  obtain ⟨hin, rfl⟩ | ⟨rest, hin, rfl⟩ | ⟨issuer, w, rest, opcode, hin, hd, rfl⟩ | ⟨issuer, w, rest, i, hin, hd, hi⟩ :=
    step_cases h
  · simp [hin]
  · simp [hin]
  · simp [hin, Event.isEdge_iff_instr?, Event.instr?_of_reserved issuer hd]
  · have hrise := exec_done_rises_iff hi
    have hfall := exec_done_falls_iff hi
    simp only [State.setInputs_done, State.setInputs_session, ordinal, State.setInputs_edgeCount] at hrise hfall
    simpa [hin, Event.isEdge_iff_instr?, Event.instr?_of_decode issuer hd] using And.intro hrise hfall

/-! ## EDGE_COUNT -/

/-- An operation that changes EDGE_COUNT in a state of R32 is an accepted EDGE, which adds 1, or an accepted START. -/
theorem exec_edgeCount_cases {i : Instr} {s t : State} (hinv : RegisterInv s) (h : exec i s = .next t)
    (hne : t.edgeCount ≠ s.edgeCount) :
    (t.edgeCount.toNat = s.edgeCount.toNat + 1 ∧ ∃ ts, i = .edge ts) ∨ (t.edgeCount = 0 ∧ i = .start) := by
  cases i with
  | start =>
    obtain ⟨-, rfl⟩ | ⟨-, rfl⟩ := execStart_cases h
    · exact absurd rfl hne
    · exact .inr ⟨rfl, rfl⟩
  | edge ts =>
    obtain ⟨-, -, rfl⟩ | ⟨hopen, rfl⟩ := execEdge_cases h
    · exact absurd rfl hne
    · exact .inl ⟨acceptEdge_edgeCount_toNat ts (hinv.partialCapture hopen).edgeCount_le, ts, rfl⟩
  | arm | tmo | fin | rd _ =>
    obtain ⟨-, hcount, -⟩ := exec_changes_session_only h (by simp) (by simp)
    exact absurd hcount hne

/-- Every EDGE that an open window of R32 takes counts. -/
theorem exec_edge_edgeCount_toNat {ts : Timestamp} {s t : State} (hinv : RegisterInv s)
    (hopen : s.session = .handshaking ∨ s.session = .capturing) (h : exec (.edge ts) s = .next t) :
    t.edgeCount.toNat = s.edgeCount.toNat + 1 := by
  obtain ⟨hh, hc, -⟩ | ⟨-, rfl⟩ := execEdge_cases h
  · exact absurd hopen (by simp [hh, hc])
  · exact acceptEdge_edgeCount_toNat ts (hinv.partialCapture hopen).edgeCount_le

/-- Settles O38: the count is at most 49 while the window is open, so adding 1 does not wrap. -/
theorem edgeCountAdvancesByOne : Obligations.EdgeCountAdvancesByOne := by
  intro s t hinv h
  obtain ⟨hin, rfl⟩ | ⟨rest, hin, rfl⟩ | ⟨issuer, w, rest, opcode, hin, hd, rfl⟩ | ⟨issuer, w, rest, i, hin, hd, hi⟩ :=
    step_cases h
  · simp [hin]
  · simp [hin, Event.endsSession_iff]
  · simp [hin, Event.isEdge_iff_instr?, Event.instr?_of_reserved issuer hd]
  · have hinv' : RegisterInv (s.setInputs rest) := hinv.of_sameRegisters (sameRegisters_setInputs s rest)
    have hinstr := Event.instr?_of_decode issuer hd
    constructor
    · rintro hopen ⟨e, rest', he, hedge⟩
      obtain ⟨rfl, -⟩ := List.cons.inj (hin.symm.trans he)
      obtain ⟨ts, hts⟩ := (Event.isEdge_iff_instr? _).mp hedge
      obtain rfl := Option.some.inj (hinstr.symm.trans hts)
      exact exec_edge_edgeCount_toNat (s := s.setInputs rest) hinv' hopen hi
    · intro hne
      simpa [hin, Event.isEdge_iff_instr?, Event.endsSession_iff, hinstr] using exec_edgeCount_cases hinv' hi hne

/-! ## Reads -/

/-- An edge is recorded without a look at the latest response. -/
theorem acceptEdge_respond (s : State) (c : ResponseCode) (d : BitVec 64) (ts : Timestamp) :
    acceptEdge (s.respond c d) ts = (acceptEdge s ts).respond c d := by
  simp only [acceptEdge_eq]
  rfl

/-- No operation reads the latest response, and each writes its own. -/
theorem exec_respond (i : Instr) (s : State) (c : ResponseCode) (d : BitVec 64) :
    exec i (s.respond c d) = exec i s := by
  cases i with
  | edge ts => simp only [exec, execEdge, acceptEdge_respond, State.respond_session]; rfl
  | start | arm | tmo | fin | rd _ => rfl

/-- RD answers a response and changes nothing else. -/
theorem issue_rd (idx : RegIndex) (s : State) : ∃ c d, issue (.rd idx) s = s.respond c d := by
  obtain ⟨c, d, h⟩ : ∃ c d, exec (.rd idx) s = .next (s.respond c d) := by
    simp only [exec, execRd]
    split
    · exact ⟨_, _, rfl⟩
    · exact ⟨_, _, rfl⟩
  exact ⟨c, d, by rw [issue, h]⟩

/-- Settles O32, by induction on the reads. -/
theorem readsMayBeOmitted : Obligations.ReadsMayBeOmitted := by
  intro idxs s i
  induction idxs generalizing s with
  | nil => rfl
  | cons idx idxs ih =>
    obtain ⟨c, d, hread⟩ := issue_rd idx s
    rw [List.foldl_cons, ih, hread, exec_respond]

/-! ## The pad byte -/

/-- The four data bytes lie above RAW_FRAME[7:0] (R26). -/
theorem dataBytes_eq_of_same_above_pad {F G : Frame} (h : F.toNat / 256 = G.toNat / 256) :
    hHi F = hHi G ∧ hLo F = hLo G ∧ tHi F = tHi G ∧ tLo F = tLo G := by
  refine ⟨BitVec.eq_of_toNat_eq ?_, BitVec.eq_of_toNat_eq ?_, BitVec.eq_of_toNat_eq ?_, BitVec.eq_of_toNat_eq ?_⟩
  · rw [hHi_toNat, hHi_toNat]; omega
  · rw [hLo_toNat, hLo_toNat]; omega
  · rw [tHi_toNat, tHi_toNat]; omega
  · rw [tLo_toNat, tLo_toNat]; omega

theorem cksumValidate_eq_of_same_above_pad {F G : Frame} (h : F.toNat / 256 = G.toNat / 256) (C : Byte) :
    cksumValidate F C = cksumValidate G C := by
  obtain ⟨h1, h2, h3, h4⟩ := dataBytes_eq_of_same_above_pad h
  rw [cksumValidate, cksumValidate, h1, h2, h3, h4]

theorem decodeReading_eq_of_same_above_pad {F G : Frame} (h : F.toNat / 256 = G.toNat / 256) (ok : Bool) :
    decodeReading F ok = decodeReading G ok := by
  obtain ⟨h1, h2, h3, h4⟩ := dataBytes_eq_of_same_above_pad h
  simp only [decodeReading, humidityOf, temperatureOf, magnitudeOf, h1, h2, h3, h4]

/-- Settles O30: FIN reads RAW_FRAME through the validator and the decoder only, and both read the four data bytes. -/
theorem padByteIsNeverRead : Obligations.PadByteIsNeverRead := by
  intro s F hF
  have hv := cksumValidate_eq_of_same_above_pad hF s.rawChecksum
  have hd := decodeReading_eq_of_same_above_pad hF
  by_cases hc : s.session = .complete
  · cases hs : cksumValidate s.rawFrame s.rawChecksum with
    | true => exact ⟨_, _, execFin_of_match hc hs, execFin_of_match hc (hv.trans hs), by simp [hd], rfl⟩
    | false => exact ⟨_, _, execFin_of_mismatch hc hs, execFin_of_mismatch hc (hv.trans hs), by simp [hd], rfl⟩
  · exact ⟨_, _, execFin_of_not_complete hc, execFin_of_not_complete hc, rfl, rfl⟩

end Sys2Proof.Machine

/-! PROOFS of the family 20_memory: the one total order in which words take effect, what an open capture window lets
through, and what a completed capture holds (spec/20_memory.md R51, R56 to R58). -/

namespace Sys2Proof.Machine

/-! ## A step on a word, and the run after it -/

/-- The decoder reads back the operation and the operand that the encoder wrote (R70, R81). -/
theorem decode_encode (i : Instr) : decode (encode i) = .op i := by
  have hopcode := opcodeOf_encode i
  cases i with
  | start => exact decode_of_opcode_1 hopcode
  | arm => exact decode_of_opcode_2 hopcode
  | edge ts => rw [decode_of_opcode_3 hopcode, operandOf_encode]; rfl
  | tmo => exact decode_of_opcode_4 hopcode
  | fin => exact decode_of_opcode_5 hopcode
  | rd idx => rw [decode_of_opcode_6 hopcode, indexOf_encode_rd]

/-- The converse of the last case of `step_cases`. -/
theorem step_of_decode {s : State} {issuer : Agent} {w : OpWord} {rest : List Event} {i : Instr}
    (hin : s.inputs = .word issuer w :: rest) (hd : decode w = .op i) : step s = exec i (s.setInputs rest) := by
  simp only [step, hin, hd]

/-- Settles O7, by the step on a decoded word. -/
theorem stepRunsTheDecodedOperation : Obligations.StepRunsTheDecodedOperation :=
  fun _ _ _ _ _ => step_of_decode

/-- A step takes one event off the events to come. -/
theorem step_inputs {s t : State} (h : step s = .next t) : t.inputs = s.inputs.tail := by
  obtain ⟨hin, rfl⟩ | ⟨rest, hin, rfl⟩ | ⟨_, _, rest, _, hin, -, rfl⟩ | ⟨_, _, rest, i, hin, -, hi⟩ := step_cases h
  · simp [hin]
  · simp [hin]
  · simp [hin]
  · simp [hin, exec_inputs hi]

/-- The converse of `run_succ`: a run that answers has answered at its first step. -/
theorem run_succ_cases {k : Nat} {s t : State} (h : core.run (k + 1) s = .next t) :
    ∃ u, step s = .next u ∧ core.run k u = .next t := by
  cases hu : step s with
  | next u => exact ⟨u, rfl, run_succ k hu ▸ h⟩
  | fault r => cases r
  | refused r =>
    have hu' : core.step s = .refused r := hu
    simp [Host.Core.run, hu'] at h

/-! ## A completed frame -/

/-- Once all edges of a frame have come, every operation but START leaves everything but STATE as it is. -/
theorem exec_keeps_completed_frame {i : Instr} {s t : State}
    (hfull : s.session = .complete ∨ s.session = .checksumInvalid) (hstart : i ≠ .start) (h : exec i s = .next t) :
    SameRegisters (s.setSession t.session) t := by
  cases i with
  | edge ts =>
    obtain ⟨-, -, rfl⟩ | ⟨hopen, -⟩ := execEdge_cases h
    · exact sameRegisters_respond s _ _
    · obtain hs | hs := hfull <;> simp [hs] at hopen
  | start | arm | tmo | fin | rd _ => exact exec_changes_session_only h hstart (by simp)

/-- R58 for one event. -/
theorem step_keeps_completed_frame {s t : State} (hinv : RegisterInv s) (hdone : s.done = true)
    (hends : ∀ e ∈ s.inputs.head?, e.endsSession = false) (h : step s = .next t) :
    SameRegisters (s.setSession t.session) t := by
  obtain ⟨-, rfl⟩ | ⟨rest, hin, -⟩ | ⟨_, _, rest, _, -, -, rfl⟩ | ⟨issuer, w, rest, i, hin, hd, hi⟩ := step_cases h
  · exact SameRegisters.refl _
  · simp [hin, Event.endsSession] at hends
  · exact SameRegisters.refl _
  · have hstart : i ≠ .start := by
      rintro rfl
      simp [hin, Event.endsSession, Event.instr?_of_decode issuer hd] at hends
    exact exec_keeps_completed_frame (s := s.setInputs rest) (hinv.done_iff.mp hdone) hstart hi

/-- R58 for any number of events: each step keeps the registers, the invariant of R32 and hence the premise on DONE. -/
theorem run_keeps_completed_frame {k : Nat} {s t : State} (hinv : RegisterInv s) (hdone : s.done = true)
    (hends : ∀ e ∈ s.inputs.take k, e.endsSession = false) (h : core.run k s = .next t) :
    RegisterInv t ∧ SameRegisters (s.setSession t.session) t := by
  induction k generalizing s with
  | zero =>
    cases h
    exact ⟨hinv, SameRegisters.refl _⟩
  | succ k ih =>
    obtain ⟨u, hu, hrun⟩ := run_succ_cases h
    have hhead : ∀ e ∈ s.inputs.head?, e.endsSession = false := fun e he => hends e (by
      obtain ⟨rest, hin⟩ := List.head?_eq_some_iff.mp he
      simp [hin])
    obtain ⟨-, hcount, hlast, hframe, hck, hdone'⟩ := step_keeps_completed_frame hinv hdone hhead hu
    have htail : ∀ e ∈ u.inputs.take k, e.endsSession = false := fun e he => hends e (by
      rw [step_inputs hu] at he
      cases hin : s.inputs <;> simp_all)
    obtain ⟨hinv', hrest⟩ := ih (stepKeepsTheRegisterInvariant s u hinv hu) (hdone'.trans hdone) htail hrun
    exact ⟨hinv', SameRegisters.trans (t := u.setSession t.session) ⟨rfl, hcount, hlast, hframe, hck, hdone'⟩ hrest⟩

/-- Settles O41: STATE is read off the invariant, since DONE stays 1. -/
theorem completedFrameStaysUntilTheNextSession : Obligations.CompletedFrameStaysUntilTheNextSession := by
  intro k s t hinv hdone hends h
  obtain ⟨hinv', -, hcount, hlast, hframe, hck, hdone'⟩ := run_keeps_completed_frame hinv hdone hends h
  have ht : t.done = true := hdone'.trans hdone
  exact ⟨hframe, hck, hcount, hlast, ht, hinv'.done_iff.mp ht⟩

/-! ## What an open window lets through -/

theorem execStart_of_capturing {s : State} (h : s.session = .capturing) : execStart s = .next (s.raise .busy 0) := by
  simp [execStart, h]

theorem execStart_of_not_capturing {s : State} (h : s.session ≠ .capturing) :
    execStart s = .next (s.clearRegisters.respond .ok 0) := by
  simp [execStart, h]

theorem execTmo_of_open {s : State} (h : s.session = .handshaking ∨ s.session = .capturing) :
    execTmo s = .next ((s.setSession .timedOut).respond .timeout 0) := by
  obtain h | h := h <;> simp [execTmo, h]

theorem execTmo_of_closed {s : State} (hh : s.session ≠ .handshaking) (hc : s.session ≠ .capturing) :
    execTmo s = .next s.raiseIllegalState := by
  simp [execTmo, hh, hc]

theorem execEdge_of_open {s : State} (ts : Timestamp) (h : s.session = .handshaking ∨ s.session = .capturing) :
    execEdge ts s = .next ((acceptEdge s ts).respond .ok 0) := by
  simp [execEdge, (edgeAccepted_iff s.session).mpr h]

theorem execEdge_of_closed {s : State} (ts : Timestamp) (hh : s.session ≠ .handshaking) (hc : s.session ≠ .capturing) :
    execEdge ts s = .next (s.respond .ok 0) := by
  have hgate : edgeAccepted s.session ≠ true := by simp [edgeAccepted_iff, hh, hc]
  simp [execEdge, hgate]

/-- An operation answers one state. -/
theorem next_unique {o : Host.Outcome State Fault Refusal} {t u : State} (ht : o = .next t) (hu : o = .next u) : t = u :=
  Host.Outcome.next.inj (ht.symm.trans hu)

/-- While `Capturing` the operations other than EDGE and TMO are refused or only read (R57). -/
theorem exec_sameRegisters_of_capturing {i : Instr} {s t : State} (hcap : s.session = .capturing)
    (hedge : ∀ ts, i ≠ .edge ts) (htmo : i ≠ .tmo) (h : exec i s = .next t) : SameRegisters s t := by
  cases i with
  | start =>
    obtain rfl := next_unique h (execStart_of_capturing hcap)
    exact sameRegisters_respond s _ _
  | arm =>
    obtain ⟨hidle, -⟩ | ⟨-, rfl⟩ := execArm_cases h
    · simp [hcap] at hidle
    · exact sameRegisters_respond s _ _
  | edge ts => exact absurd rfl (hedge ts)
  | tmo => exact absurd rfl htmo
  | fin =>
    obtain rfl := next_unique h (execFin_of_not_complete (by simp [hcap]))
    exact sameRegisters_respond s _ _
  | rd idx => exact execRd_sameRegisters h

/-- The first edge opens the window and writes nothing else but the count (R57, R120). -/
theorem acceptEdge_of_edgeCount_zero {s : State} (ts : Timestamp) (h : s.edgeCount = 0) :
    acceptEdge s ts = { s with session := .capturing, edgeCount := 1 } :=
  acceptEdge_first ts (by simp [ordinal, h])

/-- Settles O39, one operation at a time. -/
theorem onlyEdgeAndTmoWriteDuringCapture : Obligations.OnlyEdgeAndTmoWriteDuringCapture := by
  intro i s t h
  refine ⟨fun hcap => ?_, ?_, ?_, ?_, ?_, ?_⟩
  · by_cases hedge : ∃ ts, i = .edge ts
    · exact .inl hedge
    · by_cases htmo : i = .tmo
      · subst htmo
        exact .inr (.inl ⟨rfl, next_unique h (execTmo_of_open (.inr hcap))⟩)
      · exact .inr (.inr ⟨htmo, exec_sameRegisters_of_capturing hcap (not_exists.mp hedge) htmo h⟩)
  · rintro hcap rfl
    obtain rfl := next_unique h (execStart_of_capturing hcap)
    exact ⟨rfl, sameRegisters_respond s _ _⟩
  · rintro hh hc ⟨ts, rfl⟩
    obtain rfl := next_unique h (execEdge_of_closed ts hh hc)
    exact sameRegisters_respond s _ _
  · rintro hh hinv ⟨ts, rfl⟩
    obtain ⟨hcount, -⟩ := (registerInv_iff_of_handshaking hh).mp hinv
    obtain rfl := next_unique h (execEdge_of_open ts (.inl hh))
    rw [acceptEdge_of_edgeCount_zero ts hcount]
    exact sameRegisters_respond _ _ _
  · rintro hidle rfl
    obtain ⟨hs, -⟩ | ⟨-, rfl⟩ := execArm_cases h
    · exact absurd hs hidle
    · exact sameRegisters_respond s _ _
  · rintro hcomplete rfl
    obtain rfl := next_unique h (execFin_of_not_complete hcomplete)
    exact sameRegisters_respond s _ _

/-! ## Two words in the one total order -/

/-- Two words presented one after the other run as the two operations they encode, one after the other (R56). -/
theorem run_two_words {i j : Instr} {s u t : State} {rest : List Event} (a b : Agent)
    (hfirst : exec i (s.setInputs (.word b (encode j) :: rest)) = .next u)
    (hsecond : exec j (u.setInputs rest) = .next t) :
    core.run 2 { s with inputs := .word a (encode i) :: .word b (encode j) :: rest } = .next t := by
  have hu : u.inputs = .word b (encode j) :: rest := exec_inputs hfirst
  have hstep1 := (step_of_decode (s := { s with inputs := .word a (encode i) :: .word b (encode j) :: rest })
    rfl (decode_encode i)).trans hfirst
  have hstep2 := (step_of_decode hu (decode_encode j)).trans hsecond
  rw [run_succ 1 hstep1, run_succ 0 hstep2]
  rfl

/-- Settles O43: each order is run as its two operations; the edge decides which state the other word finds. -/
theorem bothOrdersOfARaceAreAdmitted : Obligations.BothOrdersOfARaceAreAdmitted := by
  intro s ts rest
  refine ⟨fun hcap hcount => ⟨?edge50_tmo, ?tmo_edge50⟩,
    fun hh hcount => ⟨?start_edge, ?edge_start, ?edge_tmo, ?tmo_edge⟩⟩
  case edge50_tmo =>
    have hs (evs : List Event) : (acceptEdge (s.setInputs evs) ts).session = .complete := by
      simp [acceptEdge_session, ordinal, hcount]
    refine ⟨_, run_two_words _ _ (execEdge_of_open ts (.inr hcap)) (execTmo_of_closed ?_ ?_), ?_⟩
    · simp [hs]
    · simp [hs]
    · simp [hs, acceptEdge_edgeCount, acceptEdge_done, ordinal, hcount, SessionState.code]
  case tmo_edge50 =>
    refine ⟨_, run_two_words _ _ (execTmo_of_open (.inr hcap)) (execEdge_of_closed ts ?_ ?_), ?_⟩
    · simp
    · simp
    · simp [hcount]
  case start_edge =>
    refine ⟨_, run_two_words _ _ (execStart_of_not_capturing ?_) (execEdge_of_closed ts ?_ ?_), ?_⟩
    · simp [hh]
    · simp
    · simp
    · simp
  case edge_start =>
    refine ⟨_, run_two_words _ _ (execEdge_of_open ts (.inl hh)) (execStart_of_capturing ?_), ?_⟩
    · simp [acceptEdge_of_edgeCount_zero, hcount]
    · simp [acceptEdge_of_edgeCount_zero, hcount, State.lastCode]
  case edge_tmo =>
    refine ⟨_, run_two_words _ _ (execEdge_of_open ts (.inl hh)) (execTmo_of_open (.inr ?_)), ?_⟩
    · simp [acceptEdge_of_edgeCount_zero, hcount]
    · simp [acceptEdge_of_edgeCount_zero, hcount]
  case tmo_edge =>
    refine ⟨_, run_two_words _ _ (execTmo_of_open (.inl hh)) (execEdge_of_closed ts ?_ ?_), ?_⟩
    · simp
    · simp
    · simp [hcount]

/-! ## The fifty edges of a capture -/

/-- The bit at frame position `k`: the classification of the time between edges `k + 1` and `k + 2` (R51). -/
def frameBit (times : Nat → Timestamp) (k : Nat) : Bool :=
  decide ((times (k + 2) - times (k + 1)).toNat > Config.thresholdUs.toNat)

/-- The accumulator holds the frame bits of positions `first` to `last`, the last one in bit 0 (R124, R125). -/
def HoldsFrameBits {width : Nat} (times : Nat → Timestamp) (first last : Nat) (acc : BitVec width) : Prop :=
  ∀ k, first ≤ k → k ≤ last → acc.getLsbD (last - k) = frameBit times k

theorem holdsFrameBits_empty {width first last : Nat} (times : Nat → Timestamp) (acc : BitVec width)
    (h : last < first) : HoldsFrameBits times first last acc :=
  fun _ hfirst hlast => absurd hlast (by omega)

/-- Shifting in the next frame bit keeps those before it, as long as the accumulator is wide enough. -/
theorem HoldsFrameBits.after_shiftIn {width first last : Nat} {times : Nat → Timestamp} {acc : BitVec width}
    {bit : BitVec 1} (h : HoldsFrameBits times first last acc) (hbit : bit.getLsbD 0 = frameBit times (last + 1))
    (hwidth : last + 1 < first + width) (hfirst : first ≤ last + 1) :
    HoldsFrameBits times first (last + 1) (shiftIn acc bit) := by
  intro k hk hlast
  by_cases hnew : k = last + 1
  · rw [hnew, Nat.sub_self, shiftIn_getLsbD_zero acc bit (by omega), hbit]
  · rw [show last + 1 - k = last - k + 1 by omega, shiftIn_getLsbD_succ acc bit _ (by omega), h k hk (by omega)]

theorem bitOf_classify_getLsbD_zero (delta : Timestamp) :
    (bitOf (classify delta)).getLsbD 0 = decide (delta.toNat > Config.thresholdUs.toNat) := by
  rw [BitVec.getLsbD, bitOf_classify_toNat]
  split_ifs with h <;> simp [h]

/-- What the registers hold after the first `n` edges of a capture whose edge `j` came at `times j` (R120). The two raw
registers need not have been clear before it. -/
structure EdgesRecorded (times : Nat → Timestamp) (n : Nat) (s : State) : Prop where
  edgeCount : s.edgeCount = BitVec.ofNat 32 n
  lastEdgeTime : 2 ≤ n → s.lastEdgeTime = times n
  rawFrame : HoldsFrameBits times 1 (min n 42 - 2) s.rawFrame
  rawChecksum : HoldsFrameBits times 41 (n - 2) s.rawChecksum

theorem edgesRecorded_zero {s : State} (times : Nat → Timestamp) (h : s.edgeCount = 0) : EdgesRecorded times 0 s where
  edgeCount := h
  lastEdgeTime h2 := absurd h2 (by omega)
  rawFrame := holdsFrameBits_empty times _ (by omega)
  rawChecksum := holdsFrameBits_empty times _ (by omega)

theorem EdgesRecorded.ordinal_eq {times : Nat → Timestamp} {n : Nat} {s : State} (h : EdgesRecorded times n s)
    (hn : n < 50) : ordinal s = n + 1 := by
  rw [ordinal, h.edgeCount, BitVec.toNat_ofNat, Nat.mod_eq_of_lt (by omega)]

/-- From edge 3 on an edge's bit is the next frame bit. -/
theorem EdgesRecorded.bit_eq {times : Nat → Timestamp} {n : Nat} {s : State} (h : EdgesRecorded times n s)
    (h2 : 2 ≤ n) :
    (bitOf (classify (deltaOf s (times (n + 1))))).getLsbD 0 = frameBit times (n - 2 + 1) := by
  rw [bitOf_classify_getLsbD_zero, deltaOf, h.lastEdgeTime h2, frameBit, show n - 2 + 1 + 1 = n by omega,
    show n - 2 + 1 + 2 = n + 1 by omega]

/-- An accepted edge extends the record by one edge. -/
theorem EdgesRecorded.after_acceptEdge {times : Nat → Timestamp} {n : Nat} {s : State} (h : EdgesRecorded times n s)
    (hn : n < 50) : EdgesRecorded times (n + 1) (acceptEdge s (times (n + 1))) where
  edgeCount := by rw [acceptEdge_edgeCount, h.ordinal_eq hn]
  lastEdgeTime h2 := by rw [acceptEdge_lastEdgeTime, h.ordinal_eq hn, if_neg (by omega)]
  rawFrame := by
    rw [acceptEdge_rawFrame, h.ordinal_eq hn]
    split_ifs with hdata
    · have hF := h.rawFrame
      rw [min_eq_left (by omega)] at hF
      rw [show min (n + 1) 42 - 2 = n - 2 + 1 by omega]
      exact hF.after_shiftIn (h.bit_eq (by omega)) (by omega) (by omega)
    · rw [show min (n + 1) 42 - 2 = min n 42 - 2 by omega]
      exact h.rawFrame
  rawChecksum := by
    rw [acceptEdge_rawChecksum, h.ordinal_eq hn]
    split_ifs with hck
    · rw [show n + 1 - 2 = n - 2 + 1 by omega]
      exact h.rawChecksum.after_shiftIn (h.bit_eq (by omega)) (by omega) (by omega)
    · exact holdsFrameBits_empty times _ (by omega)

/-- The record reads registers only. -/
theorem EdgesRecorded.of_sameRegisters {times : Nat → Timestamp} {n : Nat} {s t : State} (hst : SameRegisters s t)
    (h : EdgesRecorded times n s) : EdgesRecorded times n t := by
  obtain ⟨-, hcount, hlast, hframe, hck, -⟩ := hst
  exact ⟨hcount ▸ h.edgeCount, fun h2 => hlast ▸ h.lastEdgeTime h2, hframe ▸ h.rawFrame, hck ▸ h.rawChecksum⟩

/-- A step on an EDGE word while the window is open (R120). -/
theorem step_edge_of_open {s : State} {issuer : Agent} {ts : Timestamp} {rest : List Event}
    (hin : s.inputs = .word issuer (encode (.edge ts)) :: rest)
    (hopen : s.session = .handshaking ∨ s.session = .capturing) :
    step s = .next ((acceptEdge (s.setInputs rest) ts).respond .ok 0) :=
  (step_of_decode hin (decode_encode _)).trans (execEdge_of_open ts hopen)

/-- The words of edges `n + 1` to `n + m` from the producer, the event list of one capture. -/
def edgeEvents (times : Nat → Timestamp) (n m : Nat) : List Event :=
  (List.range' n m).map fun j => .word .producer (encode (.edge (times (j + 1))))

/-- Up to edge 49 the window stays open and each edge is recorded. -/
theorem run_edgeEvents {m n : Nat} {times : Nat → Timestamp} {s : State} {rest : List Event}
    (hm : n + m ≤ 49) (hopen : s.session = .handshaking ∨ s.session = .capturing) (hrec : EdgesRecorded times n s)
    (hin : s.inputs = edgeEvents times n m ++ rest) :
    ∃ t, core.run m s = .next t ∧ (t.session = .handshaking ∨ t.session = .capturing) ∧
      EdgesRecorded times (n + m) t ∧ t.inputs = rest := by
  induction m generalizing n s with
  | zero => exact ⟨s, rfl, hopen, hrec, hin⟩
  | succ m ih =>
    have hhead : s.inputs = .word .producer (encode (.edge (times (n + 1)))) :: (edgeEvents times (n + 1) m ++ rest) :=
      hin
    have hrec' := hrec.of_sameRegisters (sameRegisters_setInputs s (edgeEvents times (n + 1) m ++ rest))
    rw [run_succ m (step_edge_of_open hhead hopen), show n + (m + 1) = n + 1 + m by omega]
    apply ih (by omega)
    · simp [acceptEdge_session, hrec'.ordinal_eq (by omega), show n ≠ 49 by omega]
    · exact (hrec'.after_acceptEdge (by omega)).of_sameRegisters (sameRegisters_respond _ _ _)
    · simp

/-- Settles O21: edges 1 to 49 are recorded with the window open, and edge 50 ends the capture. -/
theorem fiftyEdgesCompleteTheCapture : Obligations.FiftyEdgesCompleteTheCapture := by
  intro s times rest hh hcount hin
  rw [List.range_succ, List.map_append, List.append_assoc, List.range_eq_range'] at hin
  have hsplit : s.inputs = edgeEvents times 0 49 ++ .word .producer (encode (.edge (times 50))) :: rest := hin
  obtain ⟨u, hrun, hopen, hrec, hu⟩ := run_edgeEvents (by omega) (.inl hh) (edgesRecorded_zero times hcount) hsplit
  have hrec' := hrec.of_sameRegisters (sameRegisters_setInputs u rest)
  have hlast := acceptEdge_last (times 50) (hrec'.ordinal_eq (by omega))
  obtain ⟨-, -, hframe, hck⟩ := hrec'.after_acceptEdge (by omega)
  rw [hlast] at hframe hck
  refine ⟨_, _, ?_, hframe, hck⟩
  rw [run_add 49 1 s u hrun, run_succ 0 (step_edge_of_open hu hopen), hlast]
  rfl

end Sys2Proof.Machine

/-! PROOFS of the family 30_encoding: the fields of operation words and of response words, the FRAME line of a listing,
the data field of FIN, and the two agents that issue words (spec/30_encoding.md R70 to R82). -/

namespace Sys2Proof.Machine

/-! ## The decoder -/

/-- Settles O1, by the decoder's answer for each opcode. -/
theorem decodeInvertsEncode : Obligations.DecodeInvertsEncode := decode_encode

theorem opcodeOf_eq_of_toNat {w : OpWord} (c : BitVec 4) (h : w.toNat / 2 ^ 64 = c.toNat) : opcodeOf w = c :=
  BitVec.eq_of_toNat_eq ((opcodeOf_toNat w).trans h)

theorem operandOf_eq_of_toNat {w : OpWord} {ts : Timestamp} (h : ts.toNat = w.toNat % 2 ^ 64) : operandOf w = ts :=
  BitVec.eq_of_toNat_eq ((operandOf_toNat w).trans h.symm)

theorem indexOf_eq_of_toNat {w : OpWord} {idx : RegIndex} (h : idx.toNat = w.toNat % 16) : indexOf w = idx :=
  BitVec.eq_of_toNat_eq ((indexOf_toNat w).trans h.symm)

/-- A reserved opcode is rejected with its number (R77). -/
theorem decode_eq_reservedOpcode {w : OpWord} {c : BitVec 4} (hc : opcodeOf w = c)
    (h : c.toNat = 0 ∨ 7 ≤ c.toNat) : decode w = .reservedOpcode c := by
  subst hc
  exact decode_of_reserved (h.imp_left fun h0 => BitVec.eq_of_toNat_eq h0)

/-- Settles O2: the numbers of the clauses are those of the fields that the decoder reads. -/
theorem decoderReadsOpcodeAndOperandFields : Obligations.DecoderReadsOpcodeAndOperandFields := by
  intro w
  refine ⟨fun h => ?start, fun h => ?arm, fun ts h hts => ?edge, fun h => ?tmo, fun h => ?fin, fun idx h hidx => ?rd,
    fun c h hc => ?reserved⟩
  case start => exact decode_of_opcode_1 (opcodeOf_eq_of_toNat 1#4 h)
  case arm => exact decode_of_opcode_2 (opcodeOf_eq_of_toNat 2#4 h)
  case edge => rw [decode_of_opcode_3 (opcodeOf_eq_of_toNat 3#4 h), operandOf_eq_of_toNat hts]
  case tmo => exact decode_of_opcode_4 (opcodeOf_eq_of_toNat 4#4 h)
  case fin => exact decode_of_opcode_5 (opcodeOf_eq_of_toNat 5#4 h)
  case rd => rw [decode_of_opcode_6 (opcodeOf_eq_of_toNat 6#4 h), indexOf_eq_of_toNat hidx]
  case reserved => exact decode_eq_reservedOpcode (opcodeOf_eq_of_toNat c h) hc

/-! ## Steps on words: reserved opcodes and unread bits -/

/-- The converse of the reserved case of `step_cases` (R77). -/
theorem step_of_reserved {s : State} {issuer : Agent} {w : OpWord} {rest : List Event} {c : BitVec 4}
    (hin : s.inputs = .word issuer w :: rest) (hd : decode w = .reservedOpcode c) :
    step s = .next ((s.setInputs rest).raise .illegalOp 0) := by
  simp only [step, hin, hd]
  rfl

/-- Settles O4: the decoder rejects the word, and the step answers so. -/
theorem reservedOpcodesAnswerIllegalOp : Obligations.ReservedOpcodesAnswerIllegalOp := by
  intro s issuer w rest hin hw
  rw [← opcodeOf_toNat] at hw
  exact step_of_reserved hin (decode_eq_reservedOpcode rfl hw)

/-- A step reads of a presented word what the decoder answers for it, and nothing else. -/
theorem step_word_congr (s : State) (a b : Agent) {w w' : OpWord} (rest : List Event) (h : decode w = decode w') :
    step { s with inputs := .word a w :: rest } = step { s with inputs := .word b w' :: rest } := by
  simp only [step, h]
  rfl

/-- The decoder drops the operand bits of format N and W[63:4] of format I (R72, R78). -/
theorem decode_eq_of_same_read_bits {w w' : OpWord} (hop : w.toNat / 2 ^ 64 = w'.toNat / 2 ^ 64)
    (h : w.toNat / 2 ^ 64 = 1 ∨ w.toNat / 2 ^ 64 = 2 ∨ w.toNat / 2 ^ 64 = 4 ∨ w.toNat / 2 ^ 64 = 5 ∨
      (w.toNat / 2 ^ 64 = 6 ∧ w.toNat % 16 = w'.toNat % 16)) : decode w = decode w' := by
  obtain ⟨start, arm, -, tmo, fin, rd, -⟩ := decoderReadsOpcodeAndOperandFields w
  obtain ⟨start', arm', -, tmo', fin', rd', -⟩ := decoderReadsOpcodeAndOperandFields w'
  obtain h | h | h | h | ⟨h, hidx⟩ := h
  · rw [start h, start' (hop ▸ h)]
  · rw [arm h, arm' (hop ▸ h)]
  · rw [tmo h, tmo' (hop ▸ h)]
  · rw [fin h, fin' (hop ▸ h)]
  · rw [rd (indexOf w) h (indexOf_toNat w), rd' (indexOf w) (hop ▸ h) ((indexOf_toNat w).trans hidx)]

theorem execRd_of_some {idx : RegIndex} {s : State} {v : BitVec 64} (h : readRegister s idx = some v) :
    execRd idx s = .next (s.respond .ok v) := by
  simp only [execRd, h]

theorem execRd_of_none {idx : RegIndex} {s : State} (h : readRegister s idx = none) :
    execRd idx s = .next (s.raise .illegalOp 0) := by
  simp only [execRd, h]

/-- The operand field of an operation's word as a number. -/
theorem encode_toNat_mod (i : Instr) : (encode i).toNat % 2 ^ 64 = i.operand.toNat := by
  rw [← operandOf_toNat, operandOf_encode]

/-- Settles O5: the step sees a word through the decoder, which drops the unread bits. -/
theorem unreadOperandBitsChangeNothing : Obligations.UnreadOperandBitsChangeNothing := by
  refine ⟨fun s issuer w w' rest hop h => ?unread, fun s idx h => ?reserved, fun i hi => ?zero, fun idx => ?index⟩
  case unread => exact step_word_congr s issuer issuer rest (decode_eq_of_same_read_bits hop h)
  case reserved => exact execRd_of_none ((readRegister_eq_none_iff s idx).mpr h)
  case zero =>
    rw [encode_toNat_mod]
    obtain rfl | rfl | rfl | rfl := hi <;> rfl
  case index =>
    have hidx := idx.isLt
    rw [encode_toNat_mod, Instr.operand, BitVec.toNat_setWidth, Nat.mod_eq_of_lt (by omega)]

/-! ## Response words -/

/-- Bit vectors joined are a sum by weight. -/
theorem append_toNat {m n : Nat} (x : BitVec m) (y : BitVec n) : (x ++ y).toNat = 2 ^ n * x.toNat + y.toNat := by
  rw [BitVec.toNat_append, Nat.shiftLeft_eq, Nat.mul_comm, Nat.two_pow_add_eq_or_of_lt y.isLt]

/-- Settles O6: code above data, and the numbers of R74. -/
theorem responseWordHoldsCodeAndData : Obligations.ResponseWordHoldsCodeAndData := by
  intro r
  have hdata := r.data.isLt
  have hword : r.word.toNat = 2 ^ 64 * r.code.bits.toNat + r.data.toNat := append_toNat r.code.bits r.data
  have hcode : r.word.toNat / 2 ^ 64 = r.code.bits.toNat := by omega
  refine ⟨by omega, hcode.trans ?_⟩
  cases r.code <;> rfl

/-! ## The FRAME line -/

/-- The timestamp `j` durations after the first one is the sum of those durations (R82). -/
theorem timesFrom_eq (t : Timestamp) (ds : List Timestamp) :
    timesFrom t ds = (List.range (ds.length + 1)).map fun j => t + (ds.take j).sum := by
  induction ds generalizing t with
  | nil => simp [timesFrom]
  | cons d ds ih =>
    rw [timesFrom, ih, List.length_cons, List.range_succ_eq_map (n := ds.length + 1)]
    simp [add_assoc]

/-- The durations between the 50 edges of a FRAME line: the preamble, then one per bit (R82). -/
def frameDurations (pre short long : Timestamp) (b1 b2 b3 b4 b5 ck : Byte) : List Timestamp :=
  pre :: (frameBits b1 b2 b3 b4 b5 ck).map fun bit => if bit then long else short

theorem frameTimes_eq (t0 pre short long : Timestamp) (b1 b2 b3 b4 b5 ck : Byte) :
    frameTimes t0 pre short long b1 b2 b3 b4 b5 ck =
      timesFrom t0 (frameDurations pre short long b1 b2 b3 b4 b5 ck) := rfl

theorem frameDurations_length (pre short long : Timestamp) (b1 b2 b3 b4 b5 ck : Byte) :
    (frameDurations pre short long b1 b2 b3 b4 b5 ck).length = 49 := by
  simp [frameDurations, frameBits]

/-- The duration of bit `k`, counted from 1 for the most significant. -/
theorem frameDurations_getElem (pre short long : Timestamp) (b1 b2 b3 b4 b5 ck : Byte) {k : Nat} (h1 : 1 ≤ k)
    (h : k < (frameDurations pre short long b1 b2 b3 b4 b5 ck).length) :
    (frameDurations pre short long b1 b2 b3 b4 b5 ck)[k] =
      if (b1 ++ b2 ++ b3 ++ b4 ++ b5 ++ ck).getLsbD (48 - k) then long else short := by
  rw [frameDurations_length] at h
  obtain ⟨j, rfl⟩ : ∃ j, k = j + 1 := ⟨k - 1, by omega⟩
  simp [frameDurations, frameBits, BitVec.getMsbD_eq_getLsbD, show j < 48 by omega]

/-- A FRAME line alone assembles to the words of its edges (R82). -/
theorem assemble_frame (prev : Option Timestamp) (t0 pre : Timestamp) {short long : Timestamp}
    (b1 b2 b3 b4 b5 ck : Byte) (hshort : short ≤ Config.thresholdUs) (hlong : Config.thresholdUs < long) :
    assemble prev [.frame t0 pre short long b1 b2 b3 b4 b5 ck] =
      some (edgeWords (frameTimes t0 pre short long b1 b2 b3 b4 b5 ck)) := by
  simp [assemble, hshort, hlong]

/-- Settles O22: edge `j + 1` comes at `t0` plus the first `j` durations. -/
theorem frameLineExpandsToFiftyEdges : Obligations.FrameLineExpandsToFiftyEdges := by
  intro prev t0 pre short long b1 b2 b3 b4 b5 ck hshort hlong
  have hlen := frameDurations_length pre short long b1 b2 b3 b4 b5 ck
  have hbit (k : Nat) (h1 : 1 ≤ k) := frameDurations_getElem pre short long b1 b2 b3 b4 b5 ck h1
  have htwo : ((frameDurations pre short long b1 b2 b3 b4 b5 ck).take 1).sum = pre := by simp [frameDurations]
  rw [assemble_frame prev t0 pre b1 b2 b3 b4 b5 ck hshort hlong, frameTimes_eq, timesFrom_eq, hlen]
  generalize frameDurations pre short long b1 b2 b3 b4 b5 ck = ds at *
  refine ⟨fun j => t0 + (ds.take (j - 1)).sum, ?_, ?_, ?_, fun k h1 h48 => ?_⟩
  · simp [edgeWords]
  · simp
  · exact congrArg (t0 + ·) htwo
  · rw [← hbit k h1 (by omega)]
    simp only [Nat.add_sub_cancel, show k + 2 - 1 = k + 1 by omega]
    rw [List.sum_take_succ ds k (by omega), add_assoc]

/-! ## The data field of FIN -/

/-- The humidity is RAW_FRAME[39:24] (R151). -/
theorem humidityOf_eq (F : Frame) : humidityOf F = F.toNat / 2 ^ 24 := by
  have hF := F.isLt
  rw [humidityOf, joinBytes, hHi_toNat, hLo_toNat]
  omega

/-- The magnitude of the temperature is RAW_FRAME[22:8] (R152). -/
theorem magnitudeOf_eq (F : Frame) : magnitudeOf F = F.toNat / 2 ^ 8 % 2 ^ 15 := by
  have hmask : (tHi F &&& 0x7F#8).toNat = (tHi F).toNat % 2 ^ 7 := by
    rw [BitVec.toNat_and]
    exact Nat.and_two_pow_sub_one_eq_mod _ 7
  rw [magnitudeOf, joinBytes, hmask, tHi_toNat, tLo_toNat]
  omega

/-- The sign of the temperature is RAW_FRAME[23], bit 7 of `t_hi` (R152). -/
theorem tHi_sign_iff (F : Frame) : tHi F &&& 0x80#8 ≠ 0#8 ↔ F.getLsbD 23 = true := by
  have hbit : (tHi F).getLsbD 7 = F.getLsbD 23 := by simp [tHi, Config.dataLsb]
  rw [show (0x80#8) = BitVec.twoPow 8 7 from rfl, BitVec.and_twoPow, hbit]
  cases F.getLsbD 23 <;> decide

theorem temperatureOf_eq (F : Frame) :
    temperatureOf F = if F.getLsbD 23 then -(magnitudeOf F : Int) else (magnitudeOf F : Int) := by
  simp only [temperatureOf, tHi_sign_iff]

/-- A temperature fits its 16 bits, without the least number of two's complement (R153). -/
theorem temperatureOf_bounds (F : Frame) : -2 ^ 15 < temperatureOf F ∧ temperatureOf F < 2 ^ 15 := by
  rw [temperatureOf_eq, magnitudeOf_eq]
  split <;> omega

/-- The data field of FIN by weight (R76). -/
theorem pack_toNat (r : DecodedReading) :
    (pack r).toNat = 2 ^ 32 * r.checksumOk.toNat + 2 ^ 16 * (BitVec.ofInt 16 r.temperatureTenths).toNat +
      r.humidityTenths % 2 ^ 16 := by
  simp only [pack, append_toNat, BitVec.toNat_ofNat, BitVec.toNat_ofBool]
  omega

/-- P[15:0] (R76). -/
theorem pack_humidity (r : DecodedReading) : (pack r).toNat % 2 ^ 16 = r.humidityTenths % 2 ^ 16 := by
  rw [pack_toNat]
  omega

/-- P[31:16] (R76). -/
theorem pack_temperature (r : DecodedReading) :
    (pack r).toNat / 2 ^ 16 % 2 ^ 16 = (BitVec.ofInt 16 r.temperatureTenths).toNat := by
  have ht := (BitVec.ofInt 16 r.temperatureTenths).isLt
  rw [pack_toNat]
  omega

/-- P[63:32] (R76). -/
theorem pack_checksumOk (r : DecodedReading) : (pack r).toNat / 2 ^ 32 = r.checksumOk.toNat := by
  have ht := (BitVec.ofInt 16 r.temperatureTenths).isLt
  rw [pack_toNat]
  omega

theorem pack_extract_temperature (r : DecodedReading) :
    (pack r).extractLsb' 16 16 = BitVec.ofInt 16 r.temperatureTenths := by
  apply BitVec.eq_of_toNat_eq
  rw [BitVec.extractLsb'_toNat, Nat.shiftRight_eq_div_pow, pack_temperature]

/-- Settles O29, field by field. -/
theorem packedReadingFields : Obligations.PackedReadingFields := by
  intro F ok
  have htemp : (decodeReading F ok).temperatureTenths = temperatureOf F := rfl
  obtain ⟨hlo, hhi⟩ := temperatureOf_bounds F
  refine ⟨?humidity, ?temperature, fun hneg => ?negative, ?notLeast, ?checksumOk⟩
  case humidity =>
    have hF := F.isLt
    have hhum : (decodeReading F ok).humidityTenths = F.toNat / 2 ^ 24 := humidityOf_eq F
    rw [pack_humidity, hhum, humidityOf_eq]
    omega
  case temperature =>
    rw [pack_extract_temperature, htemp]
    exact BitVec.toInt_ofInt_eq_self (by decide) hlo.le hhi
  case negative =>
    rw [pack_temperature, htemp, BitVec.toNat_ofInt, temperatureOf_eq, if_pos hneg, magnitudeOf_eq]
    omega
  case notLeast =>
    rw [pack_temperature, htemp, BitVec.toNat_ofInt]
    omega
  case checksumOk =>
    rw [pack_checksumOk]
    cases ok <;> rfl

/-! ## The agents -/

/-- The producer issues EDGE and nothing else (R71, R80). -/
theorem eq_edge_of_producer {i : Instr} (h : issuerOf i = .producer) : ∃ ts, i = .edge ts := by
  cases i with
  | edge ts => exact ⟨ts, rfl⟩
  | start | arm | tmo | fin | rd _ => cases h

/-- The discipline on the events to come holds of those that remain. -/
theorem AgentDiscipline.of_inputs_tail {s t : State} (h : AgentDiscipline s) (ht : t.inputs = s.inputs.tail) :
    AgentDiscipline t :=
  fun issuer w i hw => h issuer w i (List.mem_of_mem_tail (ht ▸ hw))

/-- A producer's word outside the capture window is an EDGE that is ignored, or has a reserved opcode. -/
theorem step_producer_sameRegisters {s t : State} {w : OpWord} {rest : List Event} (hdisc : AgentDiscipline s)
    (hin : s.inputs = .word .producer w :: rest) (hh : s.session ≠ .handshaking) (hc : s.session ≠ .capturing)
    (h : step s = .next t) : SameRegisters s t := by
  cases hd : decode w with
  | reservedOpcode c =>
    obtain rfl := next_unique h (step_of_reserved hin hd)
    exact sameRegisters_setInputs s rest
  | op i =>
    obtain ⟨ts, rfl⟩ := eq_edge_of_producer (hdisc .producer w i (by simp [hin]) hd).symm
    obtain rfl := next_unique h ((step_of_decode hin hd).trans (execEdge_of_closed ts hh hc))
    exact sameRegisters_setInputs s rest

/-- A consumer's word during a capture is TMO, or no word that writes registers there. -/
theorem step_consumer_of_capturing {s t : State} {w : OpWord} {rest : List Event} (hdisc : AgentDiscipline s)
    (hin : s.inputs = .word .consumer w :: rest) (hcap : s.session = .capturing) (h : step s = .next t) :
    SameRegisters s t ∨ t = ((s.setInputs rest).setSession .timedOut).respond .timeout 0 := by
  cases hd : decode w with
  | reservedOpcode c =>
    obtain rfl := next_unique h (step_of_reserved hin hd)
    exact .inl (sameRegisters_setInputs s rest)
  | op i =>
    have hissuer : .consumer = issuerOf i := hdisc .consumer w i (by simp [hin]) hd
    have hi : exec i (s.setInputs rest) = .next t := (step_of_decode hin hd).symm.trans h
    by_cases htmo : i = .tmo
    · subst htmo
      exact .inr (next_unique hi (execTmo_of_open (.inr hcap)))
    · have hedge : ∀ ts, i ≠ .edge ts := by
        rintro ts rfl
        cases hissuer
      exact .inl (exec_sameRegisters_of_capturing (s := s.setInputs rest) hcap hedge htmo hi)

/-- Settles O40, one agent at a time. -/
theorem eachContextWritesOnlyInItsWindow : Obligations.EachContextWritesOnlyInItsWindow := by
  intro s t issuer w rest hdisc hin h
  refine ⟨hdisc.of_inputs_tail (step_inputs h), ?producer, ?consumer⟩
  case producer =>
    rintro rfl hh hc
    exact step_producer_sameRegisters hdisc hin hh hc h
  case consumer =>
    rintro rfl hcap
    obtain hsame | rfl := step_consumer_of_capturing hdisc hin hcap h
    · exact .inl hsame
    · exact .inr ⟨rfl, rfl, rfl, rfl, rfl, rfl⟩

theorem execArm_of_idle {s : State} (h : s.session = .idle) :
    execArm s = .next ((s.setSession .handshaking).respond .ok 0) := by
  simp [execArm, h]

theorem execArm_of_not_idle {s : State} (h : s.session ≠ .idle) : execArm s = .next s.raiseIllegalState := by
  simp [execArm, h]

theorem acceptEdge_setInputs (s : State) (ts : Timestamp) (events : List Event) :
    acceptEdge (s.setInputs events) ts = (acceptEdge s ts).setInputs events := by
  simp only [acceptEdge_eq]
  rfl

/-- No operation reads the events to come. -/
theorem exec_setInputs {i : Instr} {s t : State} (h : exec i s = .next t) (events : List Event) :
    exec i (s.setInputs events) = .next (t.setInputs events) := by
  cases i with
  | start =>
    obtain ⟨hs, rfl⟩ | ⟨hs, rfl⟩ := execStart_cases h
    · exact execStart_of_capturing hs
    · exact execStart_of_not_capturing hs
  | arm =>
    obtain ⟨hs, rfl⟩ | ⟨hs, rfl⟩ := execArm_cases h
    · exact execArm_of_idle hs
    · exact execArm_of_not_idle hs
  | edge ts =>
    obtain ⟨hh, hc, rfl⟩ | ⟨hopen, rfl⟩ := execEdge_cases h
    · exact execEdge_of_closed ts hh hc
    · have hstep := execEdge_of_open (s := s.setInputs events) ts hopen
      rwa [acceptEdge_setInputs] at hstep
  | tmo =>
    obtain ⟨hopen, rfl⟩ | ⟨hh, hc, rfl⟩ := execTmo_cases h
    · exact execTmo_of_open hopen
    · exact execTmo_of_closed hh hc
  | fin =>
    obtain ⟨hs, rfl⟩ | ⟨hs, hv, rfl⟩ | ⟨hs, hv, rfl⟩ := execFin_cases h
    · exact execFin_of_not_complete hs
    · exact execFin_of_match hs hv
    · exact execFin_of_mismatch hs hv
  | rd idx =>
    obtain ⟨v, hv, rfl⟩ | ⟨hv, rfl⟩ := execRd_cases h
    · exact execRd_of_some hv
    · exact execRd_of_none hv

theorem sameWord_cons_reset {rest events : List Event} (h : List.Forall₂ Event.sameWord (.reset :: rest) events) :
    ∃ rest', events = .reset :: rest' ∧ List.Forall₂ Event.sameWord rest rest' := by
  obtain ⟨e, rest', hhead, htail, rfl⟩ := List.forall₂_cons_left_iff.mp h
  cases e with
  | reset => exact ⟨rest', rfl, htail⟩
  | word b w => exact absurd hhead id

theorem sameWord_cons_word {a : Agent} {w : OpWord} {rest events : List Event}
    (h : List.Forall₂ Event.sameWord (.word a w :: rest) events) :
    ∃ b rest', events = .word b w :: rest' ∧ List.Forall₂ Event.sameWord rest rest' := by
  obtain ⟨e, rest', hhead, htail, rfl⟩ := List.forall₂_cons_left_iff.mp h
  cases e with
  | reset => exact absurd hhead id
  | word b w' =>
    obtain rfl : w = w' := hhead
    exact ⟨b, rest', rfl, htail⟩

/-- A step from the same registers on the same events but for their issuers answers the same registers and response. -/
theorem step_setInputs_of_sameWord {s t : State} {events : List Event}
    (hsame : List.Forall₂ Event.sameWord s.inputs events) (h : step s = .next t) :
    ∃ rest, List.Forall₂ Event.sameWord t.inputs rest ∧ step (s.setInputs events) = .next (t.setInputs rest) := by
  obtain ⟨hin, rfl⟩ | ⟨rest, hin, rfl⟩ | ⟨a, w, rest, c, hin, hd, rfl⟩ | ⟨a, w, rest, i, hin, hd, hi⟩ := step_cases h
  · rw [hin] at hsame ⊢
    cases hsame
    exact ⟨[], .nil, rfl⟩
  · rw [hin] at hsame
    obtain ⟨rest', rfl, htail⟩ := sameWord_cons_reset hsame
    exact ⟨rest', htail, rfl⟩
  · rw [hin] at hsame
    obtain ⟨b, rest', rfl, htail⟩ := sameWord_cons_word hsame
    exact ⟨rest', htail, step_of_reserved rfl hd⟩
  · rw [hin] at hsame
    obtain ⟨b, rest', rfl, htail⟩ := sameWord_cons_word hsame
    have htail' : List.Forall₂ Event.sameWord t.inputs rest' := by rwa [exec_inputs hi]
    exact ⟨rest', htail', (step_of_decode rfl hd).trans (exec_setInputs hi rest')⟩

/-- The same for a run, by induction on its steps. -/
theorem run_setInputs_of_sameWord {k : Nat} {s t : State} {events : List Event}
    (hsame : List.Forall₂ Event.sameWord s.inputs events) (h : core.run k s = .next t) :
    ∃ rest, core.run k (s.setInputs events) = .next (t.setInputs rest) := by
  induction k generalizing s events with
  | zero =>
    cases h
    exact ⟨events, rfl⟩
  | succ k ih =>
    obtain ⟨u, hu, hrun⟩ := run_succ_cases h
    obtain ⟨rest, hsame', hu'⟩ := step_setInputs_of_sameWord hsame hu
    rw [run_succ k hu']
    exact ih hsame' hrun

/-- Settles O45: the two runs end in states that differ in the events to come only. -/
theorem issuerIsInvisibleToTheBlock : Obligations.IssuerIsInvisibleToTheBlock := by
  intro k s t events hsame h
  obtain ⟨rest, hrun⟩ := run_setInputs_of_sameWord hsame h
  exact ⟨t.setInputs rest, hrun, sameRegisters_setInputs t rest, rfl⟩

end Sys2Proof.Machine

/-! PROOFS of the family 40_session_control: the four operations of the consumer that move the session, the transition
and acceptance tables, and the read cycle (spec/40_session_control.md R100 to R114, spec/60_exceptions.md R177 and
R186). -/

namespace Sys2Proof.Machine

/-! ## START, ARM, TMO and FIN -/

/-- Settles O10, by START's two branches. -/
theorem startResetsUnlessCapturing : Obligations.StartResetsUnlessCapturing :=
  fun _ => ⟨execStart_of_capturing, execStart_of_not_capturing⟩

/-- Settles O11: the second ARM finds `Handshaking`. -/
theorem armOnlyFromIdle : Obligations.ArmOnlyFromIdle := by
  intro s
  refine ⟨execArm_of_idle, execArm_of_not_idle, fun t hidle h => ?_⟩
  obtain rfl := next_unique h (execArm_of_idle hidle)
  exact execArm_of_not_idle (by simp)

/-- Settles O12: the EDGE finds `TimedOut`. -/
theorem tmoClosesAnOpenCapture : Obligations.TmoClosesAnOpenCapture := by
  intro s
  refine ⟨execTmo_of_open, execTmo_of_closed, fun t ts hopen h => ?_⟩
  obtain rfl := next_unique h (execTmo_of_open hopen)
  exact execEdge_of_closed ts (by simp) (by simp)

/-- Settles O13, by FIN's three branches. -/
theorem finValidatesThenDecodes : Obligations.FinValidatesThenDecodes :=
  fun _ => ⟨execFin_of_not_complete, execFin_of_match, execFin_of_mismatch⟩

/-! ## The code of the latest response -/

@[simp] theorem State.lastCode_respond (s : State) (c : ResponseCode) (d : BitVec 64) : (s.respond c d).lastCode = c :=
  rfl

@[simp] theorem State.lastCode_raise (s : State) (c : ResponseCode) (d : BitVec 64) : (s.raise c d).lastCode = c := rfl

@[simp] theorem State.lastCode_raiseIllegalState (s : State) : s.raiseIllegalState.lastCode = .illegalState := rfl

theorem sameRegisters_raiseIllegalState (s : State) : SameRegisters s s.raiseIllegalState := sameRegisters_respond s _ _

/-- Settles O14: OK keeps `Complete` and what FIN reads, and after a mismatch FIN finds `ChecksumInvalid`. -/
theorem finRepeatsOrIsRefused : Obligations.FinRepeatsOrIsRefused := by
  intro s t h
  obtain ⟨hs, rfl⟩ | ⟨hs, hv, rfl⟩ | ⟨hs, hv, rfl⟩ := execFin_cases h
  · simp [sameRegisters_raiseIllegalState]
  · exact ⟨fun _ => ⟨hs, execFin_of_match hs hv⟩, by simp, by simp [hs]⟩
  · exact ⟨by simp, fun _ => execFin_of_not_complete (by simp), by simp [hs]⟩

/-! ## The transition table and the acceptance table -/

/-- The converse of the reset case of `step_cases` (R200). -/
theorem step_of_reset {s : State} {rest : List Event} (hin : s.inputs = .reset :: rest) :
    step s = .next (hardwareReset (s.setInputs rest)) := by
  simp only [step, hin]

/-- Settles O15, by operation; while `Capturing` the invariant keeps the ordinal at 50 or below, so that R120's test for
edge 50 is the table's. -/
theorem sessionMovesOnlyByTheTable : Obligations.SessionMovesOnlyByTheTable := by
  refine ⟨fun i s t hinv h => ?operation, fun s t rest hin h => ?reset⟩
  case reset =>
    obtain rfl := next_unique h (step_of_reset hin)
    rfl
  case operation =>
    cases i with
    | start => obtain ⟨hs, rfl⟩ | ⟨hs, rfl⟩ := execStart_cases h <;> simp [hs]
    | arm => obtain ⟨hs, rfl⟩ | ⟨hs, rfl⟩ := execArm_cases h <;> simp [hs]
    | edge ts =>
      obtain ⟨hh, hc, rfl⟩ | ⟨hs | hs, rfl⟩ := execEdge_cases h
      · simp [hh, hc]
      · obtain ⟨hcount, -⟩ := (registerInv_iff_of_handshaking hs).mp hinv
        simp [hs, acceptEdge_of_edgeCount_zero ts hcount]
      · have h49 := (hinv.partialCapture (.inr hs)).edgeCount_le
        have hlast : ordinal s = 50 ↔ ¬ s.edgeCount.toNat + 1 < 50 := by
          unfold ordinal
          omega
        simp only [State.respond_session, acceptEdge_session, hs, hlast, ite_not]
        rfl
    | tmo =>
      obtain ⟨hs, rfl⟩ | ⟨hh, hc, rfl⟩ := execTmo_cases h
      · simp [hs.symm]
      · simp [hh, hc]
    | fin =>
      obtain ⟨hs, rfl⟩ | ⟨-, hv, rfl⟩ | ⟨hs, hv, rfl⟩ := execFin_cases h
      · simp [hs]
      · simp [hv]
      · simp [hs, hv]
    | rd idx => exact (execRd_sameRegisters h).1

/-- Settles O16: each branch of each operation has the code of its cell, and either writes no register or answers so
that the second clause says nothing. -/
theorem responsesFollowTheAcceptanceTable : Obligations.ResponsesFollowTheAcceptanceTable := by
  intro i s t h
  cases i with
  | start =>
    obtain ⟨hs, rfl⟩ | ⟨hs, rfl⟩ := execStart_cases h
    · exact ⟨by simp [hs], fun _ => sameRegisters_respond s _ _⟩
    · simp [hs]
  | arm =>
    obtain ⟨hs, rfl⟩ | ⟨hs, rfl⟩ := execArm_cases h
    · simp [hs]
    · exact ⟨by simp, fun _ => sameRegisters_raiseIllegalState s⟩
  | edge ts =>
    obtain ⟨-, -, rfl⟩ | ⟨hopen, rfl⟩ := execEdge_cases h
    · exact ⟨rfl, fun _ => sameRegisters_respond s _ _⟩
    · obtain hs | hs := hopen <;> simp [hs]
  | tmo =>
    obtain ⟨hs | hs, rfl⟩ | ⟨hh, hc, rfl⟩ := execTmo_cases h
    · simp [hs]
    · simp [hs]
    · exact ⟨by simp, fun _ => sameRegisters_raiseIllegalState s⟩
  | fin =>
    obtain ⟨hs, rfl⟩ | ⟨hs, hv, rfl⟩ | ⟨hs, hv, rfl⟩ := execFin_cases h
    · exact ⟨by simp, fun _ => sameRegisters_raiseIllegalState s⟩
    · exact ⟨by simp [hs, hv], fun _ => sameRegisters_respond s _ _⟩
    · simp [hs, hv]
  | rd idx =>
    have hreserved := readRegister_eq_none_iff s idx
    refine ⟨?_, fun _ => execRd_sameRegisters h⟩
    obtain ⟨v, hv, rfl⟩ | ⟨hv, rfl⟩ := execRd_cases h
    · have hdefined : idx.toNat ≤ 5 := by simp [hv] at hreserved; omega
      simp [hdefined]
    · have h6 := hreserved.mp hv
      simp [show ¬ idx.toNat ≤ 5 by omega]

/-! ## What START leaves behind -/

/-- An accepted START answers a state in which nothing but the events to come is left of the earlier one. -/
theorem step_start_of_not_capturing {s : State} {issuer : Agent} {w : OpWord} {rest : List Event}
    (hin : s.inputs = .word issuer w :: rest) (hs : s.session ≠ .capturing) (hd : decode w = .op .start) :
    step s = .next ((State.reset.setInputs rest).respond .ok 0) :=
  (step_of_decode hin hd).trans (execStart_of_not_capturing hs)

/-- Settles O44: both runs go through the same state after their first step. -/
theorem nothingCarriesOverAnAcceptedStart : Obligations.NothingCarriesOverAnAcceptedStart := by
  intro k s s' issuer w rest hs hs' hd
  have hrun {u : State} (hu : u.session ≠ .capturing) := run_succ k
    (step_start_of_not_capturing (s := u.setInputs (.word issuer w :: rest)) rfl hu hd)
  exact (hrun hs).trans (hrun hs').symm

/-! ## Operations issued directly -/

theorem issue_of_exec {i : Instr} {s t : State} (h : exec i s = .next t) : issue i s = t := by
  rw [issue, h]

theorem issue_start_of_not_capturing {s : State} (h : s.session ≠ .capturing) :
    issue .start s = s.clearRegisters.respond .ok 0 :=
  issue_of_exec (execStart_of_not_capturing h)

/-- What the registers hold once `n` edges have come since ARM: the window is open with all of them counted, or edge 50
has completed the capture and the further ones are ignored (R120, R127). -/
structure EdgesArrived (n : Nat) (s : State) : Prop where
  openWindow : n < 50 →
    (s.session = .handshaking ∨ s.session = .capturing) ∧ s.edgeCount.toNat = n ∧ s.done = false
  completed : 50 ≤ n → s.session = .complete ∧ s.edgeCount = 50 ∧ s.done = true

theorem EdgesArrived.done_eq {n : Nat} {s : State} (h : EdgesArrived n s) : s.done = decide (50 ≤ n) := by
  by_cases hn : 50 ≤ n
  · obtain ⟨-, -, hdone⟩ := h.completed hn
    simp [hdone, hn]
  · obtain ⟨-, -, hdone⟩ := h.openWindow (by omega)
    simp [hdone, hn]

theorem EdgesArrived.of_sameRegisters {n : Nat} {s t : State} (hst : SameRegisters s t) (h : EdgesArrived n s) :
    EdgesArrived n t := by
  obtain ⟨hsession, hcount, -, -, -, hdone⟩ := hst
  exact ⟨by rw [hsession, hcount, hdone]; exact h.openWindow, by rw [hsession, hcount, hdone]; exact h.completed⟩

theorem EdgesArrived.after_edge {n : Nat} {s : State} (h : EdgesArrived n s) (ts : Timestamp) :
    EdgesArrived (n + 1) (issue (.edge ts) s) := by
  by_cases hn : n < 50
  · obtain ⟨hopen, hcount, hdone⟩ := h.openWindow hn
    have hord : ordinal s = n + 1 := by rw [ordinal, hcount]
    rw [issue_of_exec (i := .edge ts) (execEdge_of_open ts hopen)]
    refine EdgesArrived.of_sameRegisters (sameRegisters_respond (acceptEdge s ts) .ok 0) ⟨fun h50 => ?_, fun h50 => ?_⟩
    · rw [acceptEdge_session, acceptEdge_edgeCount_toNat ts (by omega), acceptEdge_done, hord, hcount, hdone]
      simp [show n ≠ 49 by omega]
    · rw [acceptEdge_last ts (by omega)]
      exact ⟨rfl, rfl, rfl⟩
  · have hcompleted := h.completed (by omega)
    have hignored : issue (.edge ts) s = s.respond .ok 0 :=
      issue_of_exec (execEdge_of_closed ts (by simp [hcompleted]) (by simp [hcompleted]))
    rw [hignored]
    exact ⟨fun h50 => absurd h50 (by omega), fun _ => hcompleted⟩

theorem EdgesArrived.after_edges {n : Nat} {s : State} (h : EdgesArrived n s) (times : List Timestamp) :
    EdgesArrived (n + times.length) (issueEdges times s) := by
  induction times generalizing n s with
  | nil => exact h
  | cons ts times ih =>
    rw [List.length_cons, show n + (times.length + 1) = n + 1 + times.length by omega]
    exact ih (h.after_edge ts)

/-! ## The read cycle -/

/-- The cycle up to the host's last look at DONE: START, ARM and the edges so far (R114, steps 1 to 5). -/
theorem edgesArrived_of_start_arm_edges {s : State} (h : s.session ≠ .capturing) (times : List Timestamp) :
    EdgesArrived times.length (issueEdges times (issue .arm (issue .start s))) := by
  have harmed : EdgesArrived 0 (issue .arm (issue .start s)) := by
    rw [issue_start_of_not_capturing h]
    exact ⟨fun _ => ⟨.inl rfl, rfl, rfl⟩, fun h50 => absurd h50 (by omega)⟩
  simpa using harmed.after_edges times

theorem readCycle_of_capturing {s : State} (times late : List Timestamp) (h : s.session = .capturing) :
    readCycle times late s = s.raise .busy 0 := by
  simp [readCycle, issue_of_exec (i := .start) (execStart_of_capturing h)]

/-- A cycle whose host sees DONE before its deadline (R114, step 7). -/
theorem readCycle_of_done {s waited : State} {times : List Timestamp} (late : List Timestamp)
    (h : s.session ≠ .capturing) (hw : issueEdges times (issue .arm (issue .start s)) = waited)
    (hdone : waited.done = true) : readCycle times late s = issue .fin waited := by
  have hcode : (issue .start s).lastCode ≠ .busy := by simp [issue_start_of_not_capturing h]
  simp [readCycle, hcode, hw, State.doneOutput, hdone]

/-- A cycle whose host does not (R114, step 6; R177). -/
theorem readCycle_of_deadline {s waited : State} {times : List Timestamp} (late : List Timestamp)
    (h : s.session ≠ .capturing) (hw : issueEdges times (issue .arm (issue .start s)) = waited)
    (hdone : waited.done = false) :
    readCycle times late s =
      if completionWon (issue .tmo (issueEdges late waited)) then issue .fin (issue .tmo (issueEdges late waited))
      else issue .tmo (issueEdges late waited) := by
  have hcode : (issue .start s).lastCode ≠ .busy := by simp [issue_start_of_not_capturing h]
  simp [readCycle, hcode, hw, State.doneOutput, hdone]

/-- The cycle ended with a whole frame: FIN answered its reading, OK or CHECKSUM_MISMATCH as the checksum says (R186). -/
def EndedWithReading (t : State) : Prop :=
  t.edgeCount = 50 ∧ t.done = true ∧
  (cksumValidate t.rawFrame t.rawChecksum = true → t.session = .complete ∧
    t.response = some { code := .ok, data := pack (decodeReading t.rawFrame true) }) ∧
  (cksumValidate t.rawFrame t.rawChecksum = false → t.session = .checksumInvalid ∧
    t.response = some { code := .checksumMismatch, data := pack (decodeReading t.rawFrame false) })

theorem EdgesArrived.endedWithReading_fin {n : Nat} {s : State} (h : EdgesArrived n s) (hn : 50 ≤ n) :
    EndedWithReading (issue .fin s) := by
  obtain ⟨hs, hcount, hdone⟩ := h.completed hn
  cases hv : cksumValidate s.rawFrame s.rawChecksum with
  | true =>
    rw [issue_of_exec (i := .fin) (execFin_of_match hs hv)]
    simp [EndedWithReading, hs, hcount, hdone, hv]
  | false =>
    rw [issue_of_exec (i := .fin) (execFin_of_mismatch hs hv)]
    simp [EndedWithReading, hcount, hdone, hv]

/-- A deadline that falls before edge 50 (R106). -/
theorem readCycle_of_timeout {s : State} {times late : List Timestamp} (h : s.session ≠ .capturing)
    (hfew : times.length + late.length < 50) :
    (readCycle times late s).session = .timedOut ∧
      (readCycle times late s).edgeCount.toNat = times.length + late.length ∧ (readCycle times late s).done = false ∧
      (readCycle times late s).response = some { code := .timeout, data := 0 } := by
  have hwaited := edgesArrived_of_start_arm_edges h times
  generalize hw : issueEdges times (issue .arm (issue .start s)) = waited at hwaited
  obtain ⟨hopen, hcount, hdone⟩ := (hwaited.after_edges late).openWindow hfew
  rw [readCycle_of_deadline late h hw (hwaited.done_eq.trans (decide_eq_false (by omega))),
    issue_of_exec (i := .tmo) (execTmo_of_open hopen)]
  simp [completionWon, hcount, hdone]

/-- All edges of a frame before the deadline, or the last ones between the last look at DONE and TMO, which `Complete`
refuses (R177). -/
theorem endedWithReading_readCycle {s : State} {times late : List Timestamp} (h : s.session ≠ .capturing)
    (hall : 50 ≤ times.length + late.length) : EndedWithReading (readCycle times late s) := by
  have hwaited := edgesArrived_of_start_arm_edges h times
  generalize hw : issueEdges times (issue .arm (issue .start s)) = waited at hwaited
  by_cases hseen : 50 ≤ times.length
  · rw [readCycle_of_done late h hw (hwaited.done_eq.trans (decide_eq_true hseen))]
    exact hwaited.endedWithReading_fin hseen
  · have hlate := hwaited.after_edges late
    obtain ⟨hs, -⟩ := hlate.completed hall
    have hrefused : issue .tmo (issueEdges late waited) = (issueEdges late waited).raiseIllegalState :=
      issue_of_exec (execTmo_of_closed (by simp [hs]) (by simp [hs]))
    have hwon : completionWon (issueEdges late waited).raiseIllegalState = true := by
      simp [completionWon, hs, SessionState.code]
    rw [readCycle_of_deadline late h hw (hwaited.done_eq.trans (decide_eq_false hseen)), hrefused, if_pos hwon]
    exact (hlate.of_sameRegisters (sameRegisters_raiseIllegalState _)).endedWithReading_fin hall

/-- Settles O48, by the state that START finds and the number of edges that come before TMO. -/
theorem readCycleHasExactlyTheSpecifiedOutcomes : Obligations.ReadCycleHasExactlyTheSpecifiedOutcomes :=
  fun _ times late => ⟨readCycle_of_capturing times late, readCycle_of_timeout, endedWithReading_readCycle⟩

end Sys2Proof.Machine

/-! PROOFS of the family 41_edge_capture: the classifier, the duration of an edge, what an EDGE does by its ordinal and
outside a capture, and a synthetic frame recovered by FIN (spec/41_edge_capture.md R120 to R130). -/

namespace Sys2Proof.Machine

/-! ## The classifier and the duration -/

theorem classify_eq_one_iff (delta : Timestamp) : classify delta = .one ↔ Config.thresholdUs.toNat < delta.toNat := by
  simp [classify, BitVec.lt_def]

theorem classify_eq_zero_iff (delta : Timestamp) : classify delta = .zero ↔ delta.toNat ≤ Config.thresholdUs.toNat := by
  simp [classify, BitVec.lt_def]

/-- Settles O18, by the comparison as numbers; the values are those for 100. -/
theorem classifierIsAStrictThreshold : Obligations.ClassifierIsAStrictThreshold :=
  ⟨fun delta => ⟨(classify_eq_one_iff delta).mpr, (classify_eq_zero_iff delta).mpr⟩, rfl, rfl, rfl, by decide, by decide,
    by decide, by decide⟩

theorem deltaOf_toNat_of_le {s : State} {ts : Timestamp} (h : s.lastEdgeTime.toNat ≤ ts.toNat) :
    (deltaOf s ts).toNat = ts.toNat - s.lastEdgeTime.toNat :=
  BitVec.toNat_sub_of_le h

/-- An earlier timestamp wraps once. -/
theorem deltaOf_toNat_of_lt {s : State} {ts : Timestamp} (h : ts.toNat < s.lastEdgeTime.toNat) :
    (deltaOf s ts).toNat = 2 ^ 64 - (s.lastEdgeTime.toNat - ts.toNat) := by
  have hlast := s.lastEdgeTime.isLt
  rw [deltaOf, BitVec.toNat_sub]
  omega

theorem deltaOf_toNat_eq_emod (s : State) (ts : Timestamp) :
    ((deltaOf s ts).toNat : Int) = ((ts.toNat : Int) - s.lastEdgeTime.toNat) % 2 ^ 64 := by
  have hts := ts.isLt
  have hlast := s.lastEdgeTime.isLt
  obtain h | h := Nat.lt_or_ge ts.toNat s.lastEdgeTime.toNat
  · rw [deltaOf_toNat_of_lt h]
    omega
  · rw [deltaOf_toNat_of_le h]
    omega

/-! ## Every operation and every step answers -/

theorem exec_edge_answers_ok (ts : Timestamp) (s : State) :
    ∃ t, exec (.edge ts) s = .next t ∧ t.response = some { code := .ok, data := 0 } := by
  by_cases hopen : s.session = .handshaking ∨ s.session = .capturing
  · exact ⟨_, execEdge_of_open ts hopen, rfl⟩
  · obtain ⟨hh, hc⟩ := not_or.mp hopen
    exact ⟨_, execEdge_of_closed ts hh hc, rfl⟩

/-- R172 for the operations: both branches of each test answer. -/
theorem exec_answers (i : Instr) (s : State) : ∃ t, exec i s = .next t := by
  cases i with
  | start =>
    by_cases hs : s.session = .capturing
    · exact ⟨_, execStart_of_capturing hs⟩
    · exact ⟨_, execStart_of_not_capturing hs⟩
  | arm =>
    by_cases hs : s.session = .idle
    · exact ⟨_, execArm_of_idle hs⟩
    · exact ⟨_, execArm_of_not_idle hs⟩
  | edge ts =>
    obtain ⟨t, ht, -⟩ := exec_edge_answers_ok ts s
    exact ⟨t, ht⟩
  | tmo =>
    by_cases hopen : s.session = .handshaking ∨ s.session = .capturing
    · exact ⟨_, execTmo_of_open hopen⟩
    · obtain ⟨hh, hc⟩ := not_or.mp hopen
      exact ⟨_, execTmo_of_closed hh hc⟩
  | fin =>
    by_cases hs : s.session = .complete
    · cases hv : cksumValidate s.rawFrame s.rawChecksum with
      | true => exact ⟨_, execFin_of_match hs hv⟩
      | false => exact ⟨_, execFin_of_mismatch hs hv⟩
    · exact ⟨_, execFin_of_not_complete hs⟩
  | rd idx =>
    cases hv : readRegister s idx with
    | some v => exact ⟨_, execRd_of_some hv⟩
    | none => exact ⟨_, execRd_of_none hv⟩

/-- The first case of `step_cases` (R34). -/
theorem step_of_nothing {s : State} (hin : s.inputs = []) : step s = .next s := by
  simp only [step, hin, idleStep]

/-- Settles O8, by the event that the step takes. -/
theorem everyStepAnswersANextState : Obligations.EveryStepAnswersANextState := by
  refine ⟨exec_answers, fun s => ?_⟩
  match hin : s.inputs with
  | [] => exact ⟨s, step_of_nothing hin⟩
  | .reset :: rest => exact ⟨_, step_of_reset hin⟩
  | .word issuer w :: rest =>
    cases hd : decode w with
    | op i =>
      rw [step_of_decode hin hd]
      exact exec_answers i _
    | reservedOpcode c => exact ⟨_, step_of_reserved hin hd⟩

/-- Settles O19, by whether the timestamp is earlier than the reference time. -/
theorem durationIsModuloTwoTo64 : Obligations.DurationIsModuloTwoTo64 := by
  intro s ts
  refine ⟨deltaOf_toNat_eq_emod s ts, deltaOf_toNat_of_le, fun hearlier => ?earlier, fun hequal => ?equal,
    exec_edge_answers_ok ts s⟩
  case earlier =>
    rw [classify_eq_one_iff, deltaOf_toNat_of_lt hearlier]
    omega
  case equal =>
    have hzero : (deltaOf s ts).toNat = 0 := by
      rw [deltaOf_toNat_of_le (hequal ▸ le_rfl), hequal, Nat.sub_self]
    exact ⟨hzero, (classify_eq_zero_iff _).mpr (by omega)⟩

/-! ## EDGE by its ordinal -/

/-- Shifting in the classified bit doubles the accumulator and adds the bit, modulo its width (R124, R125). -/
theorem shiftIn_classify {width : Nat} (acc : BitVec width) (delta : Timestamp) (hw : 1 ≤ width) :
    shiftIn acc (bitOf (classify delta)) =
      BitVec.ofNat width (2 * acc.toNat + if delta.toNat > Config.thresholdUs.toNat then 1 else 0) := by
  apply BitVec.eq_of_toNat_eq
  rw [shiftIn_toNat acc _ hw, bitOf_classify_toNat, BitVec.toNat_ofNat]

/-- Settles O17, one range of the ordinal at a time. -/
theorem edgeFollowsItsOrdinal : Obligations.EdgeFollowsItsOrdinal := by
  intro s ts n bit answer
  have hframe := shiftIn_classify s.rawFrame (deltaOf s ts) (by omega)
  have hck := shiftIn_classify s.rawChecksum (deltaOf s ts) (by omega)
  refine ⟨execEdge_of_closed ts, fun hopen => ?_⟩
  have hexec : exec (.edge ts) s = .next ((acceptEdge s ts).respond .ok 0) := execEdge_of_open ts hopen
  rw [hexec]
  refine ⟨fun h1 => ?first, fun h2 => ?second, fun h3 h42 => ?data, fun h43 h49 => ?checksum, fun h50 => ?last⟩
  case first => rw [acceptEdge_first ts h1]; rfl
  case second => rw [acceptEdge_second ts h2]; rfl
  case data => rw [acceptEdge_data ts h3 h42, hframe]; rfl
  case checksum => rw [acceptEdge_checksum ts h43 (show n ≠ 50 by omega), hck]; rfl
  case last => rw [acceptEdge_last ts h50, hck]; rfl

/-! ## EDGE outside a capture -/

/-- R127 for one EDGE word. -/
theorem step_isEdge_of_closed {s : State} {e : Event} {rest : List Event} (hin : s.inputs = e :: rest)
    (he : e.isEdge = true) (hh : s.session ≠ .handshaking) (hc : s.session ≠ .capturing) :
    step s = .next ((s.setInputs rest).respond .ok 0) := by
  obtain ⟨issuer, w, ts, rfl, hd⟩ := (Event.isEdge_iff e).mp he
  exact (step_of_decode hin hd).trans (execEdge_of_closed ts hh hc)

/-- Settles O20, by induction on the number of edges. -/
theorem edgesOutsideACaptureAreIgnored : Obligations.EdgesOutsideACaptureAreIgnored := by
  intro k s hh hc h1 hlen hedges
  induction k, h1 using Nat.le_induction generalizing s with
  | base =>
    obtain ⟨e, rest, hin⟩ := List.exists_cons_of_length_pos hlen
    have he : e.isEdge = true := hedges e (by simp [hin])
    rw [run_succ 0 (step_isEdge_of_closed hin he hh hc), hin]
    rfl
  | succ k hk ih =>
    obtain ⟨e, rest, hin⟩ := List.exists_cons_of_length_pos (Nat.zero_lt_of_lt hlen)
    rw [hin, List.take_succ_cons, List.forall_mem_cons] at hedges
    obtain ⟨he, hrest⟩ := hedges
    have hlen' : k ≤ rest.length := by simpa [hin] using hlen
    rw [run_succ k (step_isEdge_of_closed hin he hh hc), ih ((s.setInputs rest).respond .ok 0) hh hc hlen' hrest, hin]
    rfl

/-! ## Monotonic timestamps -/

theorem edgeTimes_cons_edge {e : Event} {ts : Timestamp} (rest : List Event) (h : e.instr? = some (.edge ts)) :
    edgeTimes (e :: rest) = ts :: edgeTimes rest := by
  simp only [edgeTimes, h]

theorem edgeTimes_sublist_cons (e : Event) (rest : List Event) :
    (edgeTimes rest).Sublist (edgeTimes (e :: rest)) := by
  rw [edgeTimes]
  split
  · exact List.sublist_cons_self _ _
  · exact List.Sublist.refl _

/-- Taking an event keeps the duty on the events that remain (R208). -/
theorem MonotonicTimestamps.setInputs_rest {s : State} {e : Event} {rest : List Event} (h : MonotonicTimestamps s)
    (hin : s.inputs = e :: rest) : MonotonicTimestamps (s.setInputs rest) := by
  obtain ⟨hsorted, hreference⟩ := h
  rw [hin] at hsorted hreference
  have hsub := edgeTimes_sublist_cons e rest
  exact ⟨hsorted.sublist hsub, fun h2 ts hts => hreference h2 ts (hsub.subset hts)⟩

/-- Before edge 2 there is no reference time, so only the order of the timestamps to come counts. -/
theorem MonotonicTimestamps.of_edgeCount_lt {s t : State} (h : MonotonicTimestamps s) (hin : t.inputs = s.inputs)
    (hcount : t.edgeCount.toNat < 2) : MonotonicTimestamps t :=
  ⟨hin ▸ h.1, fun h2 => absurd h2 (by omega)⟩

/-- The duty reads the count, the reference time and the events to come only. -/
theorem MonotonicTimestamps.of_same {s t : State} (h : MonotonicTimestamps s) (hin : t.inputs = s.inputs)
    (hcount : t.edgeCount = s.edgeCount) (hlast : t.lastEdgeTime = s.lastEdgeTime) : MonotonicTimestamps t := by
  unfold MonotonicTimestamps
  rw [hin, hcount, hlast]
  exact h

/-- An accepted EDGE not later than those to come is their reference time, or it is edge 1 and there is none yet. -/
theorem MonotonicTimestamps.after_acceptEdge {s : State} {ts : Timestamp} (h : MonotonicTimestamps s)
    (hts : ∀ later ∈ edgeTimes s.inputs, ts ≤ later) : MonotonicTimestamps (acceptEdge s ts) := by
  by_cases h1 : ordinal s = 1
  · rw [acceptEdge_first ts h1]
    exact h.of_edgeCount_lt rfl (by simp)
  · obtain ⟨hsorted, -⟩ := h
    unfold MonotonicTimestamps
    rw [acceptEdge_inputs, acceptEdge_lastEdgeTime, if_neg h1]
    exact ⟨hsorted, fun _ => hts⟩

/-- An operation that has been taken off the events to come keeps the duty, an EDGE if it is not later than those that
remain. -/
theorem MonotonicTimestamps.after_exec {i : Instr} {s t : State} (hmono : MonotonicTimestamps s)
    (hfirst : ∀ ts, i = .edge ts → ∀ later ∈ edgeTimes s.inputs, ts ≤ later) (h : exec i s = .next t) :
    MonotonicTimestamps t := by
  have hin := exec_inputs h
  cases i with
  | start =>
    obtain ⟨-, rfl⟩ | ⟨-, rfl⟩ := execStart_cases h
    · exact hmono.of_same rfl rfl rfl
    · exact hmono.of_edgeCount_lt rfl (by simp)
  | edge ts =>
    obtain ⟨-, -, rfl⟩ | ⟨-, rfl⟩ := execEdge_cases h
    · exact hmono.of_same rfl rfl rfl
    · exact (hmono.after_acceptEdge (hfirst ts rfl)).of_same rfl rfl rfl
  | arm | tmo | fin | rd _ =>
    obtain ⟨-, hcount, hlast, -⟩ := exec_changes_session_only h (by simp) (by simp)
    exact hmono.of_same hin hcount hlast

theorem MonotonicTimestamps.after_step {s t : State} (hmono : MonotonicTimestamps s) (h : step s = .next t) :
    MonotonicTimestamps t := by
  obtain ⟨-, rfl⟩ | ⟨rest, hin, rfl⟩ | ⟨_, _, rest, _, hin, -, rfl⟩ | ⟨issuer, w, rest, i, hin, hd, hi⟩ := step_cases h
  · exact hmono
  · exact (hmono.setInputs_rest hin).of_edgeCount_lt rfl (by simp)
  · exact (hmono.setInputs_rest hin).of_same rfl rfl rfl
  · refine (hmono.setInputs_rest hin).after_exec ?_ hi
    rintro ts rfl
    have hsorted := hmono.1
    rw [hin, edgeTimes_cons_edge rest (Event.instr?_of_decode issuer hd)] at hsorted
    exact (List.pairwise_cons.mp hsorted).1

/-- Settles O46: the next EDGE's timestamp is one of those to come, none of which lies before the reference time. -/
theorem monotonicTimestampsNeverWrap : Obligations.MonotonicTimestampsNeverWrap := by
  intro s hmono
  refine ⟨fun t => hmono.after_step, fun issuer w rest ts hin hd h2 => ?_⟩
  have hnext : ts ∈ edgeTimes s.inputs := by simp [hin, edgeTimes_cons_edge rest (Event.instr?_of_decode issuer hd)]
  have hle : s.lastEdgeTime.toNat ≤ ts.toNat := hmono.2 h2 ts hnext
  exact ⟨hle, deltaOf_toNat_of_le hle⟩

/-! ## A synthetic frame -/

/-- A duration chosen for a bit as a FRAME line does classifies as that bit (R82, R121). -/
theorem decide_duration_gt_threshold {short long : Timestamp} (hshort : short.toNat ≤ Config.thresholdUs.toNat)
    (hlong : Config.thresholdUs.toNat < long.toNat) (bit : Bool) :
    decide ((if bit then long else short).toNat > Config.thresholdUs.toNat) = bit := by
  cases bit with
  | true => exact decide_eq_true hlong
  | false => exact decide_eq_false (Nat.not_lt.mpr hshort)

/-- Two accumulators full of the same frame bits are equal. -/
theorem HoldsFrameBits.eq_of_full {width first last : Nat} {times : Nat → Timestamp} {acc acc' : BitVec width}
    (h : HoldsFrameBits times first last acc) (h' : HoldsFrameBits times first last acc')
    (hfull : last + 1 = first + width) : acc = acc' := by
  apply BitVec.eq_of_getLsbD_eq
  intro i hi
  have hk := h (last - i) (by omega) (by omega)
  have hk' := h' (last - i) (by omega) (by omega)
  rw [show last - (last - i) = i by omega] at hk hk'
  exact hk.trans hk'.symm

/-- The frame bits are split as R51 says: five bytes for RAW_FRAME and one for RAW_CHECKSUM. -/
theorem holdsFrameBits_of_append {times : Nat → Timestamp} {F : Frame} {ck : Byte}
    (h : ∀ k, 1 ≤ k → k ≤ 48 → frameBit times k = (F ++ ck).getLsbD (48 - k)) :
    HoldsFrameBits times 1 40 F ∧ HoldsFrameBits times 41 48 ck := by
  refine ⟨fun k h1 h40 => ?frame, fun k h41 h48 => ?checksum⟩
  case frame =>
    rw [h k h1 (by omega), BitVec.getLsbD_append, if_neg (by omega), show 48 - k - 8 = 40 - k by omega]
  case checksum => rw [h k (by omega) h48, BitVec.getLsbD_append, if_pos (by omega)]

/-- RAW_FRAME of four data bytes and a pad byte, by weight (R26). -/
theorem frame_toNat (b1 b2 b3 b4 pad : Byte) :
    (b1 ++ b2 ++ b3 ++ b4 ++ pad).toNat =
      2 ^ 32 * b1.toNat + 2 ^ 24 * b2.toNat + 2 ^ 16 * b3.toNat + 2 ^ 8 * b4.toNat + pad.toNat := by
  simp only [append_toNat]
  ring

theorem dataBytes_frame (b1 b2 b3 b4 pad : Byte) :
    hHi (b1 ++ b2 ++ b3 ++ b4 ++ pad) = b1 ∧ hLo (b1 ++ b2 ++ b3 ++ b4 ++ pad) = b2 ∧
      tHi (b1 ++ b2 ++ b3 ++ b4 ++ pad) = b3 ∧ tLo (b1 ++ b2 ++ b3 ++ b4 ++ pad) = b4 := by
  have h1 := b1.isLt
  have h2 := b2.isLt
  have h3 := b3.isLt
  have h4 := b4.isLt
  have h5 := pad.isLt
  have hF := frame_toNat b1 b2 b3 b4 pad
  refine ⟨BitVec.eq_of_toNat_eq ?_, BitVec.eq_of_toNat_eq ?_, BitVec.eq_of_toNat_eq ?_, BitVec.eq_of_toNat_eq ?_⟩
  · rw [hHi_toNat, hF]; omega
  · rw [hLo_toNat, hF]; omega
  · rw [tHi_toNat, hF]; omega
  · rw [tLo_toNat, hF]; omega

/-- The byte sum is the checksum that the validator accepts (R140, R141). -/
theorem cksumValidate_frame {b1 b2 b3 b4 ck : Byte} (pad : Byte)
    (hck : ck.toNat = (b1.toNat + b2.toNat + b3.toNat + b4.toNat) % 256) :
    cksumValidate (b1 ++ b2 ++ b3 ++ b4 ++ pad) ck = true := by
  obtain ⟨h1, h2, h3, h4⟩ := dataBytes_frame b1 b2 b3 b4 pad
  rw [cksumValidate, h1, h2, h3, h4, beq_iff_eq]
  exact BitVec.eq_of_toNat_eq ((cksumCompute_toNat b1 b2 b3 b4).trans hck.symm)

theorem humidityOf_frame (b1 b2 b3 b4 pad : Byte) :
    humidityOf (b1 ++ b2 ++ b3 ++ b4 ++ pad) = 256 * b1.toNat + b2.toNat := by
  obtain ⟨h1, h2, -⟩ := dataBytes_frame b1 b2 b3 b4 pad
  rw [humidityOf, joinBytes, h1, h2]

theorem magnitudeOf_frame (b1 b2 b3 b4 pad : Byte) :
    magnitudeOf (b1 ++ b2 ++ b3 ++ b4 ++ pad) = 256 * (b3.toNat % 128) + b4.toNat := by
  have h4 := b4.isLt
  have h5 := pad.isLt
  rw [magnitudeOf_eq, frame_toNat]
  omega

/-- RAW_FRAME[23] is the top bit of the third byte (R152). -/
theorem frame_getLsbD_sign (b1 b2 b3 b4 pad : Byte) :
    BitVec.getLsbD (b1 ++ b2 ++ b3 ++ b4 ++ pad) 23 = true ↔ 128 ≤ b3.toNat := by
  have h3 := b3.isLt
  have h4 := b4.isLt
  have h5 := pad.isLt
  rw [BitVec.getLsbD, Nat.testBit_eq_decide_div_mod_eq, decide_eq_true_iff, frame_toNat]
  omega

theorem temperatureOf_frame (b1 b2 b3 b4 pad : Byte) :
    temperatureOf (b1 ++ b2 ++ b3 ++ b4 ++ pad) =
      if b3.toNat < 128 then (256 * b3.toNat + b4.toNat : Int) else -(256 * (b3.toNat - 128) + b4.toNat : Int) := by
  have h3 := b3.isLt
  simp only [temperatureOf_eq, magnitudeOf_frame, frame_getLsbD_sign]
  split_ifs <;> omega

/-! ## A read cycle presented as words -/

theorem presenter_encode (i : Instr) : presenter (encode i) = issuerOf i := by
  rw [presenter, decode_encode]

/-- START, ARM, the edges of a capture and FIN, each from its agent. -/
def cycleEvents (times : Nat → Timestamp) : List Event :=
  [.word .consumer (encode .start), .word .consumer (encode .arm)] ++
    (List.range 50).map (fun j => .word .producer (encode (.edge (times (j + 1))))) ++ [.word .consumer (encode .fin)]

/-- START, ARM, a FRAME line and FIN assemble to such a cycle, whose frame bits are those of the line (R51, R82). -/
theorem assemble_cycle {t0 pre short long : Timestamp} {b1 b2 b3 b4 b5 ck : Byte} {words : List OpWord}
    (hshort : short.toNat ≤ Config.thresholdUs.toNat) (hlong : Config.thresholdUs.toNat < long.toNat)
    (h : assemble none [.op .start, .op .arm, .frame t0 pre short long b1 b2 b3 b4 b5 ck, .op .fin] = some words) :
    ∃ times : Nat → Timestamp, words.map (fun w => Event.word (presenter w) w) = cycleEvents times ∧
      ∀ k, 1 ≤ k → k ≤ 48 → frameBit times k = (b1 ++ b2 ++ b3 ++ b4 ++ b5 ++ ck).getLsbD (48 - k) := by
  obtain ⟨times, hedges, -, -, hstep⟩ :=
    frameLineExpandsToFiftyEdges none t0 pre short long b1 b2 b3 b4 b5 ck hshort hlong
  rw [assemble_frame none t0 pre b1 b2 b3 b4 b5 ck hshort hlong, Option.some.injEq] at hedges
  refine ⟨times, ?_, fun k h1 h48 => ?_⟩
  · have hle : short ≤ Config.thresholdUs := hshort
    have hlt : Config.thresholdUs < long := hlong
    simp only [assemble, hle, hlt, and_self, if_true, hedges, Option.map_some, Option.some.injEq] at h
    subst h
    simp [cycleEvents, presenter_encode, issuerOf]
  · rw [frameBit, hstep k h1 h48, add_sub_cancel_left, decide_duration_gt_threshold hshort hlong]

theorem run_start_arm {s : State} {rest : List Event} (hs : s.session ≠ .capturing)
    (hin : s.inputs = .word .consumer (encode .start) :: .word .consumer (encode .arm) :: rest) :
    ∃ t, core.run 2 s = .next t ∧ t.session = .handshaking ∧ t.edgeCount = 0 ∧ t.inputs = rest := by
  have hrun := run_two_words (i := .start) (j := .arm) (rest := rest) .consumer .consumer
    (execStart_of_not_capturing (s := s.setInputs _) hs) (execArm_of_idle rfl)
  rw [← hin] at hrun
  exact ⟨_, hrun, rfl, rfl, rfl⟩

/-- A cycle whose edges deliver a frame with a valid checksum ends in `Complete` with that frame and its reading. -/
theorem run_cycleEvents {s : State} {times : Nat → Timestamp} {F : Frame} {ck : Byte} {rest : List Event}
    (hs : s.session ≠ .capturing) (hin : s.inputs = cycleEvents times ++ rest)
    (hbits : ∀ k, 1 ≤ k → k ≤ 48 → frameBit times k = (F ++ ck).getLsbD (48 - k))
    (hvalid : cksumValidate F ck = true) :
    core.run 53 s = .next
      { session := .complete, edgeCount := 50, lastEdgeTime := times 50, rawFrame := F, rawChecksum := ck, done := true,
        response := some { code := .ok, data := pack (decodeReading F true) }, inputs := rest } := by
  obtain ⟨hframe, hcksum⟩ := holdsFrameBits_of_append hbits
  simp only [cycleEvents, List.append_assoc, List.cons_append, List.nil_append] at hin
  obtain ⟨t, hopening, hh, hcount, ht⟩ := run_start_arm hs hin
  obtain ⟨F', ck', hedges, hF, hC⟩ := fiftyEdgesCompleteTheCapture t times _ hh hcount ht
  obtain rfl := HoldsFrameBits.eq_of_full hF hframe rfl
  obtain rfl := HoldsFrameBits.eq_of_full hC hcksum rfl
  rw [run_add 2 51 s t hopening, run_add 50 1 t _ hedges]
  exact run_succ 0 ((step_of_decode rfl (decode_encode .fin)).trans (execFin_of_match rfl hvalid))

/-- Settles O23: the durations of the line classify as its bits, so the capture holds its bytes, and FIN reads them. -/
theorem everyFrameRoundTrips : Obligations.EveryFrameRoundTrips := by
  intro s t0 pre short long b1 b2 b3 b4 pad ck words rest hs hshort hlong hck hwords hin
  obtain ⟨times, hevents, hbits⟩ := assemble_cycle hshort hlong hwords
  have hlength : words.length = 53 := by
    simpa [cycleEvents] using congrArg List.length hevents
  rw [hevents] at hin
  obtain ⟨hhumidity, htemperature, -, -, hok⟩ := packedReadingFields (b1 ++ b2 ++ b3 ++ b4 ++ pad) true
  exact ⟨hlength, _, _, run_cycleEvents hs hin hbits (cksumValidate_frame pad hck),
    rfl, rfl, rfl, rfl, rfl, rfl, rfl, rfl, hhumidity.trans (humidityOf_frame b1 b2 b3 b4 pad),
    htemperature.trans (temperatureOf_frame b1 b2 b3 b4 pad), hok⟩

end Sys2Proof.Machine

/-! PROOFS of the family 42_checksum: the truncated byte sum, the comparison with the transmitted byte, and which
flipped bits the comparison detects (spec/42_checksum.md R140 to R142). -/

namespace Sys2Proof.Machine

/-! ## The byte sum and the comparison -/

/-- R140 in the arithmetic of bytes, where the order of the operands is an identity of rings. -/
theorem cksumCompute_eq_add (b1 b2 b3 b4 : Byte) : cksumCompute b1 b2 b3 b4 = b1 + b2 + b3 + b4 := by
  refine BitVec.eq_of_toNat_eq ?_
  simp only [cksumCompute_toNat, BitVec.toNat_add]
  omega

/-- Settles O24, by the sum of bytes as a number and as a byte. -/
theorem checksumIsTheTruncatedByteSum : Obligations.ChecksumIsTheTruncatedByteSum := by
  intro b1 b2 b3 b4
  refine ⟨cksumCompute_toNat b1 b2 b3 b4, ?partialSums, ?exchanged, ?rotated⟩
  case partialSums =>
    rw [cksumCompute_toNat]
    omega
  case exchanged =>
    simp only [cksumCompute_eq_add]
    ring
  case rotated =>
    simp only [cksumCompute_eq_add]
    ring

theorem cksumValidate_iff_cksumCompute_eq (F : Frame) (C : Byte) :
    cksumValidate F C = true ↔ cksumCompute (hHi F) (hLo F) (tHi F) (tLo F) = C :=
  beq_iff_eq

/-- Settles O25, by the place of each data byte in the frame (R26). -/
theorem validatorSumsTheFourDataBytes : Obligations.ValidatorSumsTheFourDataBytes := by
  intro F C
  rw [cksumValidate_iff_cksumCompute_eq, ← BitVec.toNat_inj, cksumCompute_toNat, hHi_toNat, hLo_toNat, tHi_toNat,
    tLo_toNat]

/-! ## The change of the byte sum when a bit of the frame is flipped -/

/-- Byte `k` of the frame, counted from the pad byte: F[8k+7:8k]. -/
def frameByte (F : Frame) (k : Nat) : Byte := F.extractLsb' (8 * k) 8

/-- The sum of the four data bytes, which are bytes 1 to 4 (R26). -/
def dataSum (F : Frame) : Byte := ∑ k ∈ Finset.Icc 1 4, frameByte F k

theorem cksumCompute_dataBytes (F : Frame) : cksumCompute (hHi F) (hLo F) (tHi F) (tLo F) = dataSum F := by
  have hsum : dataSum F = tLo F + tHi F + hLo F + hHi F := by
    simp [dataSum, Finset.sum_Icc_succ_top, frameByte, tLo, tHi, hLo, hHi, Config.dataLsb]
  rw [cksumCompute_eq_add, hsum]
  ring

/-- What a byte gains when its bit `i`, now `bit`, is flipped: -2^i or +2^i (R142). -/
def flipGain (bit : Bool) (i : Nat) : Byte := if bit then -BitVec.twoPow 8 i else BitVec.twoPow 8 i

theorem flipGain_ne_zero (bit : Bool) {i : Nat} (hi : i < 8) : flipGain bit i ≠ 0 := by
  have hpow : BitVec.twoPow 8 i ≠ 0 := by
    intro h
    have hbit := BitVec.getLsbD_twoPow (w := 8) i i
    rw [h] at hbit
    simp [hi] at hbit
  cases bit with
  | true => exact neg_ne_zero.mpr hpow
  | false => exact hpow

/-- A set bit and a cleared bit of the same weight cancel. -/
theorem flipGain_add_of_ne {bit bit' : Bool} (h : bit ≠ bit') (i : Nat) : flipGain bit i + flipGain bit' i = 0 := by
  cases bit <;> cases bit' <;> simp [flipGain] at h ⊢

theorem xor_twoPow_of_clear {b : Byte} {i : Nat} (h : b.getLsbD i = false) :
    b ^^^ BitVec.twoPow 8 i = b + BitVec.twoPow 8 i := by
  rw [BitVec.add_eq_or_of_and_eq_zero _ _ (by rw [BitVec.and_twoPow, h]; rfl)]
  refine BitVec.eq_of_getLsbD_eq fun n hn => ?_
  by_cases hni : i = n
  · subst hni
    simp [h]
  · simp [BitVec.getLsbD_twoPow, hni]

/-- Flipping a set bit undoes the flip of the cleared one. -/
theorem byte_xor_twoPow (b : Byte) {i : Nat} (hi : i < 8) :
    b ^^^ BitVec.twoPow 8 i = b + flipGain (b.getLsbD i) i := by
  cases hbit : b.getLsbD i with
  | false => exact xor_twoPow_of_clear hbit
  | true =>
    have hclear : (b ^^^ BitVec.twoPow 8 i).getLsbD i = false := by
      simp [hbit, hi]
    have hback := xor_twoPow_of_clear hclear
    rw [BitVec.xor_assoc, BitVec.xor_self, BitVec.xor_zero] at hback
    exact eq_add_neg_of_add_eq hback.symm

/-- One bit of the frame lies in one byte. -/
theorem frameByte_one_shiftLeft (j : Nat) {k : Nat} (hk : k < 5) :
    frameByte (1#40 <<< j) k = if k = j / 8 then BitVec.twoPow 8 (j % 8) else 0 := by
  refine BitVec.eq_of_getLsbD_eq fun n hn => ?_
  rw [frameByte, ← BitVec.twoPow_eq, BitVec.getLsbD_extractLsb', BitVec.getLsbD_twoPow]
  split_ifs with hkj
  · rw [BitVec.getLsbD_twoPow]
    rw [Bool.eq_iff_iff]
    simp only [Bool.and_eq_true, decide_eq_true_eq]
    omega
  · simp only [BitVec.ofNat_eq_ofNat, BitVec.getLsbD_zero, Bool.and_eq_false_iff, decide_eq_false_iff_not]
    omega

theorem frameByte_flip (F : Frame) (j : Nat) {k : Nat} (hk : k < 5) :
    frameByte (F ^^^ (1#40 <<< j)) k =
      frameByte F k + if k = j / 8 then flipGain (F.getLsbD j) (j % 8) else 0 := by
  have hxor : frameByte (F ^^^ (1#40 <<< j)) k = frameByte F k ^^^ frameByte (1#40 <<< j) k := BitVec.extractLsb'_xor
  rw [hxor, frameByte_one_shiftLeft j hk]
  split_ifs with hkj
  · have hbit : (frameByte F k).getLsbD (j % 8) = F.getLsbD j := by
      rw [frameByte, BitVec.getLsbD_extractLsb', hkj, Nat.div_add_mod]
      simp [Nat.mod_lt]
    rw [byte_xor_twoPow _ (Nat.mod_lt j (by decide)), hbit]
  · simp

/-- A flipped bit changes the computed checksum by its gain if it lies in a data byte, and not at all in
the pad byte. -/
theorem dataSum_flip (F : Frame) (j : Nat) :
    dataSum (F ^^^ (1#40 <<< j)) =
      dataSum F + if j / 8 ∈ Finset.Icc 1 4 then flipGain (F.getLsbD j) (j % 8) else 0 := by
  rw [dataSum, dataSum, ← Finset.sum_ite_eq' _ _ fun _ => flipGain (F.getLsbD j) (j % 8), ← Finset.sum_add_distrib]
  refine Finset.sum_congr rfl fun k hk => frameByte_flip F j ?_
  have hle := (Finset.mem_Icc.mp hk).2
  omega

/-! ## Which flips the validator detects -/

theorem cksumValidate_iff (F : Frame) (C : Byte) : cksumValidate F C = true ↔ dataSum F = C := by
  rw [cksumValidate_iff_cksumCompute_eq, cksumCompute_dataBytes]

theorem cksumValidate_eq_of_dataSum_eq {F G : Frame} (h : dataSum F = dataSum G) (C : Byte) :
    cksumValidate F C = cksumValidate G C := by
  rw [Bool.eq_iff_iff, cksumValidate_iff, cksumValidate_iff, h]

theorem dataSum_flip_data (F : Frame) {j : Nat} (h8 : 8 ≤ j) (h40 : j < 40) :
    dataSum (F ^^^ (1#40 <<< j)) = dataSum F + flipGain (F.getLsbD j) (j % 8) := by
  rw [dataSum_flip, if_pos (Finset.mem_Icc.mpr (by omega))]

theorem dataSum_flip_pad (F : Frame) {j : Nat} (h8 : j < 8) : dataSum (F ^^^ (1#40 <<< j)) = dataSum F := by
  have hpad : j / 8 ∉ Finset.Icc 1 4 := by
    rw [Nat.div_eq_of_lt h8]
    decide
  rw [dataSum_flip, if_neg hpad, add_zero]

/-- Flips of a set and a cleared bit at the same place of two data bytes cancel. -/
theorem dataSum_flip_two (F : Frame) {j m : Nat} (h8 : 8 ≤ j) (hjm : j < m) (h40 : m < 40)
    (hplace : (m - j) % 8 = 0) (hne : F.getLsbD j ≠ F.getLsbD m) :
    dataSum (F ^^^ (1#40 <<< j) ^^^ (1#40 <<< m)) = dataSum F := by
  have hkept : (F ^^^ (1#40 <<< j)).getLsbD m = F.getLsbD m := by
    rw [BitVec.getLsbD_xor, ← BitVec.twoPow_eq, BitVec.getLsbD_twoPow, decide_eq_false hjm.ne, Bool.and_false,
      Bool.xor_false]
  rw [dataSum_flip_data _ (by omega) h40, dataSum_flip_data F h8 (by omega), hkept,
    show m % 8 = j % 8 by omega, add_assoc, flipGain_add_of_ne hne, add_zero]

/-- Settles O26, by the change of the byte sum: a gain that is not 0, none, or two that cancel. -/
theorem singleDataBitFlipIsDetected : Obligations.SingleDataBitFlipIsDetected := by
  intro F C
  refine ⟨fun j h8 h40 hvalid => ?data, fun j h8 => ?pad, fun j m h8 hjm h40 hplace hne => ?two, ?some⟩
  case data =>
    rw [← Bool.not_eq_true, cksumValidate_iff, dataSum_flip_data F h8 h40, (cksumValidate_iff F C).mp hvalid]
    exact mt add_eq_left.mp (flipGain_ne_zero _ (Nat.mod_lt j (by decide)))
  case pad => exact cksumValidate_eq_of_dataSum_eq (dataSum_flip_pad F h8) C
  case two => exact cksumValidate_eq_of_dataSum_eq (dataSum_flip_two F h8 hjm h40 hplace hne) C
  case some => exact ⟨_, (cksumValidate_iff F _).mpr rfl⟩

end Sys2Proof.Machine

/-! PROOFS of the family 43_reading_decoder: the humidity and the temperature that the decoder reads from a frame
(spec/43_reading_decoder.md R151, R152). -/

namespace Sys2Proof.Machine

/-! ## Humidity -/

/-- The two humidity bytes are the top 16 bits of the frame, so every 16-bit number stands there in some frame. -/
theorem humidityOf_ofNat {v : Nat} (hv : v ≤ 65535) : humidityOf (BitVec.ofNat 40 (v * 2 ^ 24)) = v := by
  rw [humidityOf_eq, BitVec.toNat_ofNat, Nat.mod_eq_of_lt (by omega)]
  exact Nat.mul_div_cancel v (by decide)

/-- Settles O27, by the place of the humidity bytes in the frame. -/
theorem humidityIsTheFirstTwoBytes : Obligations.HumidityIsTheFirstTwoBytes := by
  refine ⟨humidityOf_eq, fun F => ?bound, fun v hv => ⟨_, humidityOf_ofNat hv⟩⟩
  case bound =>
    have hF := F.isLt
    rw [humidityOf_eq]
    omega

/-! ## Temperature -/

theorem temperatureOf_of_sign_clear {F : Frame} (h : F.getLsbD 23 = false) :
    temperatureOf F = (F.toNat / 2 ^ 8 % 2 ^ 15 : Nat) := by
  rw [temperatureOf_eq, h, magnitudeOf_eq]
  rfl

theorem temperatureOf_of_sign_set {F : Frame} (h : F.getLsbD 23 = true) :
    temperatureOf F = -((F.toNat / 2 ^ 8 % 2 ^ 15 : Nat) : Int) := by
  rw [temperatureOf_eq, if_pos h, magnitudeOf_eq]

/-- The sign of a zero magnitude is lost. -/
theorem temperatureOf_of_magnitude_zero {F : Frame} (h : F.toNat / 2 ^ 8 % 2 ^ 15 = 0) : temperatureOf F = 0 := by
  rw [temperatureOf_eq, magnitudeOf_eq, h]
  exact ite_self 0

/-- Settles O28, by the sign bit; the extremes are the frames with all magnitude bits set. -/
theorem temperatureIsSignAndMagnitude : Obligations.TemperatureIsSignAndMagnitude := by
  refine ⟨fun F => ?_, ⟨0x00007FFF00, by decide⟩, ⟨0x0000FFFF00, by decide⟩⟩
  obtain ⟨hlo, hhi⟩ := temperatureOf_bounds F
  exact ⟨temperatureOf_of_sign_clear, temperatureOf_of_sign_set, by omega, by omega, temperatureOf_of_magnitude_zero⟩

end Sys2Proof.Machine

/-! PROOFS of the family 44_readback: what RD answers for each register and for a reserved index
(spec/44_readback.md R160, R161). -/

namespace Sys2Proof.Machine

/-- The answer of R160 as a number: `zext_64` keeps the register's value. -/
theorem exec_rd_of_readRegister {s : State} {idx : RegIndex} {width v : Nat} {x : BitVec width}
    (hread : readRegister s idx = some (x.setWidth 64)) (hv : x.toNat = v) :
    exec (.rd idx) s = .next (s.respond .ok (BitVec.ofNat 64 v)) := by
  rw [← hv, BitVec.ofNat_toNat]
  exact execRd_of_some hread

/-- Settles O31, one index at a time; STATE and DONE are read as their codes. -/
theorem readBackReturnsTheRegister : Obligations.ReadBackReturnsTheRegister := by
  refine ⟨fun s => ⟨?state, ?edgeCount, ?lastEdgeTime, ?rawFrame, ?rawChecksum, ?done, fun idx hidx => ?reserved⟩, ?word⟩
  case state => exact exec_rd_of_readRegister (x := s.session.code) rfl (by cases s.session <;> rfl)
  case edgeCount => exact exec_rd_of_readRegister (x := s.edgeCount) rfl rfl
  case lastEdgeTime =>
    have hzext : s.lastEdgeTime.setWidth 64 = s.lastEdgeTime := BitVec.setWidth_eq s.lastEdgeTime
    exact exec_rd_of_readRegister (congrArg some hzext.symm) rfl
  case rawFrame => exact exec_rd_of_readRegister (x := s.rawFrame) rfl rfl
  case rawChecksum => exact exec_rd_of_readRegister (x := s.rawChecksum) rfl rfl
  case done => exact exec_rd_of_readRegister (x := BitVec.ofBool s.done) rfl (by cases s.done <;> rfl)
  case reserved => exact execRd_of_none ((readRegister_eq_none_iff s idx).mpr hidx)
  case word => exact decode_of_opcode_6 (by decide)

end Sys2Proof.Machine

/-! PROOFS of the family 60_exceptions: the error table and the end of a read cycle
(spec/60_exceptions.md R170, R186). -/

namespace Sys2Proof.Machine

/-! ## The error table -/

/-- Raising an error writes no register of its own (R16, R179). -/
theorem sameRegisters_raise (s : State) (c : ResponseCode) (d : BitVec 64) : SameRegisters s (s.raise c d) :=
  sameRegisters_respond s c d

/-- Settles O42: each branch of each operation answers OK or stands on one line of the table; TMO and FIN write STATE at
most, and the refusals write no register. -/
theorem errorsChangeOnlyWhatTheyList : Obligations.ErrorsChangeOnlyWhatTheyList := by
  refine ⟨fun i s t h => ?operation, fun s t issuer w opcode rest hin hd h => ?reserved⟩
  case reserved =>
    obtain rfl := next_unique h (step_of_reserved hin hd)
    exact ⟨rfl, (sameRegisters_setInputs s rest).trans (sameRegisters_raise _ _ _)⟩
  case operation =>
    cases i with
    | start =>
      obtain ⟨hs, rfl⟩ | ⟨hs, rfl⟩ := execStart_cases h
      · exact ⟨_, rfl, by simp [hs, sameRegisters_raise]⟩
      · exact ⟨_, rfl, by simp [hs]⟩
    | arm =>
      obtain ⟨hs, rfl⟩ | ⟨hs, rfl⟩ := execArm_cases h
      · exact ⟨_, rfl, by simp [hs]⟩
      · exact ⟨_, rfl, by simp [hs, sameRegisters_raiseIllegalState]⟩
    | edge ts =>
      obtain ⟨-, -, rfl⟩ | ⟨-, rfl⟩ := execEdge_cases h
      · exact ⟨_, rfl, by simp⟩
      · exact ⟨_, rfl, by simp⟩
    | tmo =>
      have hsession : SameRegisters { s with session := t.session } t := exec_changes_session_only h (by simp) (by simp)
      obtain ⟨hs | hs, rfl⟩ | ⟨hh, hc, rfl⟩ := execTmo_cases h
      · exact ⟨_, rfl, by simpa [hs] using hsession⟩
      · exact ⟨_, rfl, by simpa [hs] using hsession⟩
      · exact ⟨_, rfl, by simp [hh, hc, sameRegisters_raiseIllegalState]⟩
    | fin =>
      have hsession : SameRegisters { s with session := t.session } t := exec_changes_session_only h (by simp) (by simp)
      obtain ⟨hs, rfl⟩ | ⟨hs, hv, rfl⟩ | ⟨hs, hv, rfl⟩ := execFin_cases h
      · exact ⟨_, rfl, by simp [hs, sameRegisters_raiseIllegalState]⟩
      · exact ⟨_, rfl, by simp [hs, hv]⟩
      · exact ⟨_, rfl, by simpa [hs, hv] using hsession⟩
    | rd idx =>
      have hreserved := readRegister_eq_none_iff s idx
      obtain ⟨v, hv, rfl⟩ | ⟨hv, rfl⟩ := execRd_cases h
      · have hdefined : ¬ 6 ≤ idx.toNat := by simp [← hreserved, hv]
        exact ⟨_, rfl, by simp [hdefined]⟩
      · exact ⟨_, rfl, by simp [hreserved.mp hv, sameRegisters_respond]⟩

/-! ## The end of a read cycle -/

/-- Settles O47: only TMO and FIN end a cycle, and where they are refused they answer ILLEGAL_STATE, which ends none. -/
theorem readCyclesEndInAnOutcomeState : Obligations.ReadCyclesEndInAnOutcomeState := by
  intro i s t h hend
  cases i with
  | start | arm | edge _ | rd _ => simp [endsCycle] at hend
  | tmo =>
    obtain ⟨-, rfl⟩ | ⟨-, -, rfl⟩ := execTmo_cases h
    · exact .inl ⟨rfl, rfl⟩
    · simp [endsCycle] at hend
  | fin =>
    obtain ⟨-, rfl⟩ | ⟨hs, -, rfl⟩ | ⟨-, -, rfl⟩ := execFin_cases h
    · simp [endsCycle] at hend
    · exact .inr (.inl ⟨rfl, hs⟩)
    · exact .inr (.inr ⟨rfl, rfl⟩)

end Sys2Proof.Machine

/-! PROOFS of the family 70_reset_and_hazards: the reset input (spec/70_reset_and_hazards.md R200). -/

namespace Sys2Proof.Machine

/-! ## Reset -/

/-- On the registers reset does what an accepted START does (R100, R200). -/
theorem sameRegisters_hardwareReset_of_start {s u v : State} (hu : u.session ≠ .capturing)
    (h : exec .start u = .next v) : SameRegisters (hardwareReset s) v := by
  obtain rfl := next_unique h (execStart_of_not_capturing hu)
  exact ⟨rfl, rfl, rfl, rfl, rfl, rfl⟩

/-- Settles O9: reset leaves `Idle`, where ARM is accepted and the gate of EDGE is closed. -/
theorem resetClearsAllRegisters : Obligations.ResetClearsAllRegisters := by
  refine ⟨fun s rest hin => ?_, rfl, rfl, rfl, rfl, rfl, rfl⟩
  exact ⟨hardwareReset (s.setInputs rest), step_of_reset hin, rfl,
    fun _ _ => sameRegisters_hardwareReset_of_start,
    execArm_of_idle (hardwareReset_session _),
    fun ts => execEdge_of_closed ts (by simp) (by simp)⟩

end Sys2Proof.Machine

/-! PROOFS of the family other: the words written out in the spec's table 2.1 (spec/95_test_vectors.md 2.1). -/

namespace Sys2Proof.Machine

/-! ## The words of table 2.1 -/

/-- Settles O3: each word's opcode and operand fields are computed, and the decoder's law for that opcode gives its row. -/
theorem sampleWordsDecode : Obligations.SampleWordsDecode := by
  refine ⟨?start, ?arm, ?edge, ?tmo, ?fin, ?rd, ?reserved0, ?reserved15⟩
  case start => exact decode_of_opcode_1 (by decide)
  case arm => exact decode_of_opcode_2 (by decide)
  case edge =>
    have hts : operandOf 0x300000000000003E8#68 = 1000 := by decide
    rw [decode_of_opcode_3 (by decide), hts]
  case tmo => exact decode_of_opcode_4 (by decide)
  case fin => exact decode_of_opcode_5 (by decide)
  case rd =>
    have hidx : indexOf 0x6FFFFFFFFFFFFFFF3#68 = 3 := by decide
    rw [decode_of_opcode_6 (by decide), hidx]
  case reserved0 => exact decode_eq_reservedOpcode (by decide) (by decide)
  case reserved15 => exact decode_eq_reservedOpcode (by decide) (by decide)

end Sys2Proof.Machine
